-- ==== Sys2Proof/Word.lean ====
section
/-! DEFINITION. The widths of the SLMP codec block: a byte is 8 bits, a word 16, a double word 32,
a command word 64 (spec/00_scope.md R10, spec/30_encoding.md R90). -/

namespace Sys2Proof

/-- A byte of a frame, a wire code, or a character (spec/00_scope.md R10, R12; spec/44_word_codec.md R221). -/
abbrev Byte := BitVec 8

/-- A 16-bit word (spec/00_scope.md R10). -/
abbrev Word := BitVec 16

/-- A 32-bit value, two words (spec/00_scope.md R10). -/
abbrev DWord := BitVec 32

/-- A command word, format `CW` (spec/30_encoding.md R91). -/
abbrev CmdWord := BitVec 64

/-- A layout descriptor, format `LD`: `KIND` in bits 7..0, `CLEN` in bits 23..8 (spec/30_encoding.md R112). -/
abbrev Descriptor := BitVec 24

end Sys2Proof
end

