-- ==== Sys2Proof/Machine/Bytes.lean ====
section
/-! DEFINITION. The byte-order and bit-field helpers of spec/00_scope.md R13, used by the decoder, the encoder
and the codecs. -/

namespace Sys2Proof.Machine

/-- `le16`: the two bytes of a word, low byte first (spec/00_scope.md R13, spec/20_memory.md R61). -/
def le16 (v : Word) : List Byte := [v.extractLsb' 0 8, v.extractLsb' 8 8]

/-- `un16`: the word with low byte `lo` and high byte `hi` (spec/00_scope.md R13). -/
def un16 (lo hi : Byte) : Word := (hi.setWidth 16 <<< 8) ||| lo.setWidth 16

/-- The 32-bit value of two words, low word first (spec/20_memory.md R62). -/
def un32 (w0 w1 : Word) : DWord := (w1.setWidth 32 <<< 16) ||| w0.setWidth 32

/-- The two words of a 32-bit value, low word first (spec/20_memory.md R62). -/
def words32 (d : DWord) : List Word := [d.extractLsb' 0 16, d.extractLsb' 16 16]

/-- `sext_16`: the signed number with the same 16 bits. PRESUMED two's complement (spec/00_scope.md R13, R14;
spec/93 G1; log 20). -/
def sext16 (w : Word) : Int := if w.toNat < 0x8000 then w.toNat else (w.toNat : Int) - 65536

/-- `sext_32`: the signed number with the same 32 bits (spec/00_scope.md R13, R14; log 20). -/
def sext32 (d : DWord) : Int := if d.toNat < 0x80000000 then d.toNat else (d.toNat : Int) - 4294967296

/-- `trunc_16`: the low 16 bits of the two's-complement form (spec/00_scope.md R13, R14; log 20). -/
def trunc16 (i : Int) : Word := BitVec.ofInt 16 i

/-- `trunc_32`: the low 32 bits of the two's-complement form (spec/00_scope.md R13, R14; log 20). -/
def trunc32 (i : Int) : DWord := BitVec.ofInt 32 i

/-- The first `n` bytes of a number whose bit 0 is bit 0 of the first byte. -/
def bytesLsbFirst : Nat → Nat → List Byte
  | 0, _ => []
  | n + 1, w => BitVec.ofNat 8 w :: bytesLsbFirst n (w / 256)

/-- The `n` bytes of a number written with its first byte leftmost, as spec/opcode_table.json writes the leading
bytes of a frame ("match_mask_note"). -/
def bytesMsbFirst (n w : Nat) : List Byte := (bytesLsbFirst n w).reverse

/-- Zero bytes appended until the list has `n` bytes. -/
def padTo (n : Nat) (bs : List Byte) : List Byte := bs ++ List.replicate (n - bs.length) 0

end Sys2Proof.Machine
end

