-- ==== Sys2Proof/Config.lean ====
section
/-! DEFINITION. What is fixed before reset: the constants of spec/00_scope.md R8, the implementation
parameters of R9 as one plain record `Params`, and the free values of the model. -/

namespace Sys2Proof

/-- The data kind of a device (spec/00_scope.md R16): its units are booleans or 16-bit values. -/
inductive DevKind where
  | word
  | bit
deriving DecidableEq, Repr

/-- One row of `DEVTAB` (spec/10_state.md R41). -/
structure DevRow where
  code : Byte
  kind : DevKind
deriving DecidableEq, Repr

namespace Config

/-- The routing header (spec/00_scope.md R8). -/
def hdr : List Byte := [0x50, 0x00, 0x00, 0xff, 0xff, 0x03, 0x00]

/-- `CMD_READ` (spec/00_scope.md R8). -/
def cmdRead : Word := 0x0401

/-- `CMD_WRITE` (spec/00_scope.md R8). -/
def cmdWrite : Word := 0x1401

/-- `CMD_SELFTEST`, the one value the source prints (spec/00_scope.md R8, spec/93 U7; log 4). -/
def cmdSelftest : Word := 0x1617

/-- `SUB_BIT` (spec/00_scope.md R8). -/
def subBit : Word := 0x0001

/-- `SUB_WORD` (spec/00_scope.md R8). -/
def subWord : Word := 0x0000

/-- `MON_TIMER`, fixed (spec/00_scope.md R9, decision D6). -/
def monTimer : Word := 0x0000

/-- `DISC_NOSERIAL` (spec/00_scope.md R8). -/
def discNoSerial : Byte := 0xd0

/-- `DISC_SERIAL` (spec/00_scope.md R8). -/
def discSerial : Byte := 0xd4

/-- The device identifier of `D` (spec/40_device_table.md R140). -/
def devD : Byte := 5

/-- The row of `D`, the only one that rests on the source (spec/40_device_table.md R141). -/
def rowD : DevRow := ⟨0xa8, .word⟩

/-- The default `DEVTAB`. PRESUMED: every row but `D`'s is the spec's general knowledge, not the source's
(spec/40_device_table.md R141, spec/93 G2; log 3). -/
def devtabDefault : List DevRow :=
  [⟨0x9c, .bit⟩, ⟨0x9d, .bit⟩, ⟨0x90, .bit⟩, ⟨0xa0, .bit⟩, ⟨0x91, .bit⟩,
   rowD, ⟨0xb4, .word⟩, ⟨0xaf, .word⟩, ⟨0xb0, .word⟩, ⟨0xa9, .word⟩]

/-- The suggested default of `ST_DATA` and of `ST_EXPECT` (spec/00_scope.md R9; log 4). -/
def sentinel : List Byte := [0x04, 0x00, 0xde, 0xad, 0xbe, 0xef]

/-- Free value: what an 8-bit register that a RESET leaves unspecified holds. The arguments are the number
of the draw and the register's number (spec/10_state.md R45; log 7). -/
opaque freeByte : Nat → Nat → Byte

/-- Free value: the same for a 16-bit register (spec/10_state.md R45; log 7). -/
opaque freeWord : Nat → Nat → Word

/-- Free value: the same for the 4-bit register `RD.SHL` (spec/10_state.md R45; log 7). -/
opaque freeNibble : Nat → Nat → BitVec 4

/-- Free value: the 40 bits (`KIND`, `CLEN`, `W`) of a layout-table entry that nothing has written; the
arguments are the number of the draw and the entry's index (spec/10_state.md R45, spec/93 U39; log 8). -/
opaque freeEntry : Nat → Nat → BitVec 40

/-- Free value: what `OLEN` holds when `DOUT` has more items than 32 bits count; the argument is that
number of items (spec/10_state.md R27; log 9). -/
opaque olenBeyond : Nat → BitVec 32

end Config

/-- The implementation parameters (spec/00_scope.md R9). `NDEV` is the number of rows of `devtab`
(spec/10_state.md R41); `maxItems = none` is the unbounded `MAX_ITEMS`. -/
structure Params where
  devtab : List DevRow
  stSub : Word
  stData : List Byte
  stExpect : List Byte
  maxPayload : Nat
  maxCount : Nat
  maxBody : Nat
  maxFields : Nat
  maxItems : Option Nat
deriving DecidableEq, Repr

/-- The spec's defaults (spec/00_scope.md R9; logs 2 to 5). -/
def Params.default : Params where
  devtab := Config.devtabDefault
  stSub := 0x0000
  stData := Config.sentinel
  stExpect := Config.sentinel
  maxPayload := 65523
  maxCount := 65535
  maxBody := 65535
  maxFields := 64
  maxItems := none

/-- The conditions the spec puts on the parameters (spec/00_scope.md R9, spec/40_device_table.md R140, R141;
spec/41_frame_encoder.md R154, R156): ten devices, the row of `D` fixed, the bounds of each limit, six expected
bytes, self-test data that fits a frame. -/
def Params.ok (p : Params) : Bool :=
  p.devtab.length == 10 && p.devtab[5]? == some Config.rowD &&
  decide (p.maxPayload ≤ 65523) && decide (p.maxCount ≤ 65535) && decide (p.maxBody ≤ 65535) &&
  decide (1 ≤ p.maxFields) && decide (p.stData.length ≤ 65529) && p.stExpect.length == 6 &&
  (match p.maxItems with
   | none => true
   | some m => decide (65544 ≤ m))

end Sys2Proof
end

