-- ==== Sys2Proof/Syntax.lean ====
section
/-! DEFINITION. The instructions: one constructor per row of spec/opcode_table.json. The seventeen
operations carry every operand field of their command word, also those the operation ignores, because
the issue loads them all (spec/10_state.md R21). The five wire-format rows carry the fields of one frame. -/

namespace Sys2Proof

/-- The operand fields of a command word, format `CW` (spec/30_encoding.md R91). -/
structure CwFields where
  dev : Byte
  addr : Word
  count : Word
  len : Word
deriving DecidableEq, Repr

/-- The rows of spec/opcode_table.json. -/
inductive Instr where
  /-- `DT.KIND` (spec/40_device_table.md R142). -/
  | dtKind (f : CwFields)
  /-- `DT.CODE` (spec/40_device_table.md R143). -/
  | dtCode (f : CwFields)
  /-- `DT.SUBCMD` (spec/40_device_table.md R144). -/
  | dtSubcmd (f : CwFields)
  /-- `FE.READ` (spec/41_frame_encoder.md R151). -/
  | feRead (f : CwFields)
  /-- `FE.WRITE` (spec/41_frame_encoder.md R153). -/
  | feWrite (f : CwFields)
  /-- `FE.SELFTEST` (spec/41_frame_encoder.md R156). -/
  | feSelftest (f : CwFields)
  /-- `RD.RECV` (spec/42_response_decoder.md R172). -/
  | rdRecv (f : CwFields)
  /-- `BC.ENC` (spec/43_bit_codec.md R200). -/
  | bcEnc (f : CwFields)
  /-- `BC.DEC` (spec/43_bit_codec.md R202). -/
  | bcDec (f : CwFields)
  /-- `WC.ENC` (spec/44_word_codec.md R210). -/
  | wcEnc (f : CwFields)
  /-- `WC.DEC` (spec/44_word_codec.md R212). -/
  | wcDec (f : CwFields)
  /-- `WC.SENC` (spec/44_word_codec.md R214). -/
  | wcSenc (f : CwFields)
  /-- `WC.SDEC` (spec/44_word_codec.md R217). -/
  | wcSdec (f : CwFields)
  /-- `RM.LAYOUT` (spec/45_record_marshaler.md R231). -/
  | rmLayout (f : CwFields)
  /-- `RM.SIZEOF` (spec/45_record_marshaler.md R234). -/
  | rmSizeof (f : CwFields)
  /-- `RM.DEC` (spec/45_record_marshaler.md R236). -/
  | rmDec (f : CwFields)
  /-- `RM.ENC` (spec/45_record_marshaler.md R240). -/
  | rmEnc (f : CwFields)
  /-- `REQ.READ`: one outbound device-read frame (spec/30_encoding.md R95; the kind is the subcommand, R97). -/
  | reqRead (kind : DevKind) (addr : Word) (code : Byte) (count : Word)
  /-- `REQ.WRITE`: one outbound device-write frame with its payload (spec/30_encoding.md R95). -/
  | reqWrite (kind : DevKind) (addr : Word) (code : Byte) (count : Word) (payload : List Byte)
  /-- `REQ.SELFTEST`: one outbound self-test frame (spec/30_encoding.md R98). -/
  | reqSelftest (sub : Word) (data : List Byte)
  /-- `RESP.D0`: one inbound frame without serial number; `routing` is the six ignored sub-header bytes, `body`
  the bytes the length field counts (spec/30_encoding.md R100 to R102). -/
  | respD0 (routing : List Byte) (body : List Byte)
  /-- `RESP.D4`: one inbound frame with serial number; `routing` is the ten ignored sub-header bytes
  (spec/30_encoding.md R100 to R102). -/
  | respD4 (routing : List Byte) (body : List Byte)
deriving DecidableEq, Repr

end Sys2Proof
end

