-- ==== Sys2Proof/Machine/State.lean ====
section
/-! DEFINITION. The machine's state: every element of spec/10_state.md, the parameters of spec/00_scope.md R9,
and the model's own fields for what the other two agents will do (log 1). Plain data throughout. -/

namespace Sys2Proof.Machine

/-- `RX.term` (spec/10_state.md R33). -/
inductive RxTerm where
  | stillOpen
  | eof
  | ioError
deriving DecidableEq, Repr

/-- `RD.PHASE`: which transport pull of `RD.RECV` is outstanding (spec/10_state.md R34). -/
inductive RdPhase where
  | idle
  | waitStart
  | waitSubhdr
  | waitBody
deriving DecidableEq, Repr

/-- The field kinds of a layout (spec/10_state.md R36, spec/30_encoding.md R112). -/
inductive FieldKind where
  | bool
  | int16
  | uint16
  | int32
  | uint32
  | string
deriving DecidableEq, Repr

/-- One written entry of the layout table, `LT.F[i]` (spec/10_state.md R36). -/
structure LtEntry where
  kind : FieldKind
  clen : Word
  w : Word
deriving DecidableEq, Repr

/-- A field value (spec/10_state.md R37). `i16` and `i32` hold signed numbers of those widths (spec/00_scope.md
R12); `Operands.lean` says which numbers those are. -/
inductive FieldVal where
  | b (v : Bool)
  | i16 (v : Int)
  | u16 (v : Word)
  | i32 (v : Int)
  | u32 (v : DWord)
  | s (cs : List Byte)
deriving DecidableEq, Repr

/-- One item of `DIN` or `DOUT` (spec/10_state.md R30). -/
inductive Item where
  | bool (v : Bool)
  | byte (v : Byte)
  | word (v : Word)
  | char (v : Byte)
  | desc (v : Descriptor)
  | val (v : FieldVal)
deriving DecidableEq, Repr

/-- The agents that take steps (spec/00_scope.md R7). -/
inductive Agent where
  | host
  | block
  | transport
deriving DecidableEq, Repr

/-- What the host can do to the block and its transport. -/
inductive HostAct where
  /-- Write a command word together with `DIN` (spec/10_state.md R21, R31). -/
  | issue (cw : CmdWord) (din : List Item)
  /-- Hand bytes to the transport's `writeAll` (spec/46_host_sequences.md R260). -/
  | send (bytes : List Byte)
  /-- Assert `RESET` (spec/70_reset_and_hazards.md R320). -/
  | reset
  /-- A successful `connect`: a fresh inbound stream (spec/10_state.md R43, spec/46_host_sequences.md R261). -/
  | connect
  /-- `disconnect`: the inbound stream ends (spec/46_host_sequences.md R261; log 22). -/
  | disconnect
deriving DecidableEq, Repr

/-- How the transport closes the stream (spec/10_state.md R33). -/
inductive CloseKind where
  | eof
  | ioError
deriving DecidableEq, Repr

/-- What the transport can do to `RX` (spec/10_state.md R33). -/
inductive WireAct where
  | append (bytes : List Byte)
  | close (how : CloseKind)
deriving DecidableEq, Repr

/-- The ways a step stops with a fault. -/
inductive Fault where
  /-- Raised by the frame encoder and by an outbound frame whose body would have more than 65535 bytes: `req` is
  defined only when `6 + |data| ≤ 0xFFFF` (spec/41_frame_encoder.md R150). Only parameters the spec forbids lead
  here. Safe: no frame is claimed where the spec defines none (log 19). -/
  | frameUndefined
deriving DecidableEq, Repr

/-- The ways a step gives no meaning. -/
inductive Refusal where
  /-- The instruction with this mnemonic has no meaning in the model yet. Safe. -/
  | notModelled (mnemonic : String)
  /-- An operation is issued while `BUSY = 1`: the host has no such step (spec/20_memory.md R70, spec/93 U3).
  Raised by every operation. Safe (log 11). -/
  | commandPortBusy
  /-- `DIN` is longer than `MAX_ITEMS`, which cannot be presented at all (spec/60_exceptions.md R287). Raised by
  every defined operation, not by an undefined `OP` (log 30). Safe (log 12). -/
  | dinTooLong
  /-- `DIN` holds an item that is not of the operation's item type, which fixes what `DIN` can carry
  (spec/10_state.md R30). Raised by every operation that reads `DIN`. Safe (log 12). -/
  | dinItemType
  /-- Bytes arrive on a stream that is not open: the transport has no such step (spec/10_state.md R33). Raised by
  the inbound frames. Safe (log 13). -/
  | streamClosed
  /-- The term stands for no frame the encodings carry (spec/30_encoding.md R96, R100, R102). Raised by the
  inbound and outbound frames. Safe (log 29). -/
  | illFormedFrame
deriving DecidableEq, Repr

/-- The state. Names are those of spec/10_state.md; the last five fields are the model's own. -/
structure State where
  /-- `OP` (R21). -/
  op : Byte
  /-- `DEV` (R21). -/
  dev : Byte
  /-- `ADDR` (R21). -/
  addr : Word
  /-- `COUNT` (R21). -/
  count : Word
  /-- `LEN` (R21). -/
  len : Word
  /-- `BUSY` (R23). -/
  busy : Bool
  /-- `STATUS`: `ERR` in bits 3..0, `SUB` in 7..4, `CODE` in 23..8 (R25). -/
  status : BitVec 24
  /-- `RES` (R26). -/
  res : Word
  /-- `OLEN` (R27). -/
  olen : BitVec 32
  /-- `DIN` (R30, R31). -/
  din : List Item
  /-- `DOUT` (R30, R32). -/
  dout : List Item
  /-- `RX.bytes` (R33). -/
  rxBytes : List Byte
  /-- `RX.term` (R33). -/
  rxTerm : RxTerm
  /-- `RD.PHASE` (R34). -/
  phase : RdPhase
  /-- `RD.SHL` (R34). -/
  shl : BitVec 4
  /-- `RD.BLEN` (R34). -/
  blen : Word
  /-- `LT.VALID` (R36). -/
  ltValid : Bool
  /-- `LT.N` (R36). -/
  ltN : Nat
  /-- `LT.SIZE` (R36). -/
  ltSize : Word
  /-- The written entries of `LT.F`, from index 0 on (R36; log 8). -/
  ltF : List LtEntry
  /-- The implementation parameters, `DEVTAB` among them (R41, R42; log 2). No step changes them. -/
  params : Params
  /-- The model's own: the bytes the host has handed to `writeAll` (log 14). -/
  tx : List Byte
  /-- The model's own: what the host will do, in its order (log 1). -/
  hostQ : List HostAct
  /-- The model's own: what the transport will do, in its order (log 1). -/
  wireQ : List WireAct
  /-- The model's own: which agent moves next (log 1). -/
  sched : List Agent
  /-- The model's own: how many times unspecified values have been drawn (logs 7 and 8). -/
  draws : Nat
deriving DecidableEq, Repr

/-- The machine right after reset (spec/10_state.md R45), with the default parameters (spec/00_scope.md R9) and
a fresh open stream (spec/95_test_vectors.md Part 3). DESIGN CHOICE: the registers R45 leaves unspecified hold 0
(log 6). -/
def State.reset : State where
  op := 0
  dev := 0
  addr := 0
  count := 0
  len := 0
  busy := false
  status := 0
  res := 0
  olen := 0
  din := []
  dout := []
  rxBytes := []
  rxTerm := .stillOpen
  phase := .idle
  shl := 0
  blen := 0
  ltValid := false
  ltN := 0
  ltSize := 0
  ltF := []
  params := Params.default
  tx := []
  hostQ := []
  wireQ := []
  sched := []
  draws := 0

end Sys2Proof.Machine
end

