-- ==== Sys2Proof/Machine/Flags.lean ====
section
/-! DEFINITION. The status register: the error kinds, their sub-causes, and how a completion packs them
(spec/10_state.md R25, spec/60_exceptions.md R281, R282). The block has no other flags (spec/10_state.md R28). -/

namespace Sys2Proof.Machine

/-- The error kinds (spec/60_exceptions.md R281). The block never raises those marked *host*. -/
inductive ErrKind where
  /-- *host* (R281). -/
  | connectionTimeout
  /-- *host* (R281). -/
  | notConnected
  | transportIo
  | malformedFrame
  | remoteStatusError
  /-- *host* (R281). -/
  | deviceKindMismatch
  | unsupportedFieldKind
  | missingFieldMetadata
  /-- *host* (R281). -/
  | addressParseError
  | unknownDevice
  | shapeError
  | illegalOp
  | capacity
deriving DecidableEq, Repr

/-- The code of a kind in `STATUS.ERR` (spec/60_exceptions.md R281). -/
def errCode : ErrKind → BitVec 4
  | .connectionTimeout => 1
  | .notConnected => 2
  | .transportIo => 3
  | .malformedFrame => 4
  | .remoteStatusError => 5
  | .deviceKindMismatch => 6
  | .unsupportedFieldKind => 7
  | .missingFieldMetadata => 8
  | .addressParseError => 9
  | .unknownDevice => 10
  | .shapeError => 11
  | .illegalOp => 12
  | .capacity => 13

/-- The sub-causes (spec/60_exceptions.md R282). -/
inductive SubCause where
  | none
  | eof
  | ioError
  | invalidStart
  | shortBody
  | oddLength
  | shortBitPayload
  | stringTooShort
  | wordCount
  | fieldCount
  | fieldVariant
  | stringLength
  | noLayout
  | countLimit
  | frameLength
  | bodyLimit
  | fieldLimit
  | layoutSize
  | itemLimit
deriving DecidableEq, Repr

/-- The code of a sub-cause in `STATUS.SUB` (spec/60_exceptions.md R282). -/
def subCode : SubCause → BitVec 4
  | .none => 0
  | .eof => 1
  | .ioError => 2
  | .invalidStart => 1
  | .shortBody => 2
  | .oddLength => 3
  | .shortBitPayload => 1
  | .stringTooShort => 2
  | .wordCount => 3
  | .fieldCount => 4
  | .fieldVariant => 5
  | .stringLength => 6
  | .noLayout => 7
  | .countLimit => 1
  | .frameLength => 2
  | .bodyLimit => 3
  | .fieldLimit => 4
  | .layoutSize => 5
  | .itemLimit => 6

/-- `STATUS = CODE << 8 | SUB << 4 | ERR` (spec/10_state.md R25). -/
def packStatus (err sub : BitVec 4) (code : Word) : BitVec 24 :=
  (code.setWidth 24 <<< 8) ||| (sub.setWidth 24 <<< 4) ||| err.setWidth 24

/-- The `STATUS` an error completion writes (spec/60_exceptions.md R284). -/
def errStatus (kind : ErrKind) (sub : SubCause) (code : Word) : BitVec 24 :=
  packStatus (errCode kind) (subCode sub) code

/-- `STATUS.ERR`, bits 3..0 (spec/10_state.md R25). -/
def State.err (s : State) : BitVec 4 := s.status.extractLsb' 0 4

/-- `STATUS.SUB`, bits 7..4 (spec/10_state.md R25). -/
def State.sub (s : State) : BitVec 4 := s.status.extractLsb' 4 4

/-- `STATUS.CODE`, bits 23..8 (spec/10_state.md R25). -/
def State.code (s : State) : Word := s.status.extractLsb' 8 16

/-- The pairs of a kind and a sub-cause that the block writes, success apart (spec/60_exceptions.md R281, R282). -/
def raisedPairs : List (ErrKind × SubCause) :=
  [(.transportIo, .eof), (.transportIo, .ioError), (.malformedFrame, .invalidStart), (.malformedFrame, .shortBody),
   (.malformedFrame, .oddLength), (.remoteStatusError, .none), (.unsupportedFieldKind, .none),
   (.missingFieldMetadata, .none), (.unknownDevice, .none), (.shapeError, .shortBitPayload),
   (.shapeError, .stringTooShort), (.shapeError, .wordCount), (.shapeError, .fieldCount),
   (.shapeError, .fieldVariant), (.shapeError, .stringLength), (.shapeError, .noLayout), (.illegalOp, .none),
   (.capacity, .countLimit), (.capacity, .frameLength), (.capacity, .bodyLimit), (.capacity, .fieldLimit),
   (.capacity, .layoutSize), (.capacity, .itemLimit)]

/-- `STATUS` holds success, or a kind and sub-cause the block raises, with a nonzero `CODE` exactly for
RemoteStatusError (spec/10_state.md R25, spec/60_exceptions.md R281, R282, R286). -/
def legalStatus (st : BitVec 24) : Bool :=
  st == 0 ||
    raisedPairs.any fun p =>
      let code := st.extractLsb' 8 16
      st == errStatus p.1 p.2 code && (code == 0) == (p.1 != .remoteStatusError)

end Sys2Proof.Machine
end

