-- ==== Sys2Proof/Machine/Operands.lean ====
section
/-! DEFINITION. The operand forms: the item types of `DIN` (spec/10_state.md R30, R37), layout descriptors
(spec/30_encoding.md R112), field kinds and their widths (R109, R111), and the device operand
(spec/40_device_table.md R145). -/

namespace Sys2Proof.Machine

/-! ### `DIN` items -/

/-- An item as a boolean. -/
def Item.bool? : Item → Option Bool
  | .bool v => some v
  | _ => none

/-- An item as a byte. -/
def Item.byte? : Item → Option Byte
  | .byte v => some v
  | _ => none

/-- An item as a word. -/
def Item.word? : Item → Option Word
  | .word v => some v
  | _ => none

/-- An item as a character. -/
def Item.char? : Item → Option Byte
  | .char v => some v
  | _ => none

/-- An item as a layout descriptor. -/
def Item.desc? : Item → Option Descriptor
  | .desc v => some v
  | _ => none

/-- The signed numbers of a width of 16 or 32 bits (spec/00_scope.md R12). -/
def FieldVal.inRange : FieldVal → Bool
  | .i16 v => decide (-32768 ≤ v ∧ v < 32768)
  | .i32 v => decide (-2147483648 ≤ v ∧ v < 2147483648)
  | .b _ => true
  | .u16 _ => true
  | .u32 _ => true
  | .s _ => true

/-- An item as a field value (spec/10_state.md R37). -/
def Item.val? : Item → Option FieldVal
  | .val v => if v.inRange then some v else none
  | _ => none

/-- The whole of `DIN` as items of one type, or none when an item is of another type. -/
def itemsAs {α : Type} (as? : Item → Option α) : List Item → Option (List α)
  | [] => some []
  | x :: xs =>
    match as? x, itemsAs as? xs with
    | some a, some as => some (a :: as)
    | _, _ => none

/-! ### Layout descriptors and fields -/

/-- `KIND` of a descriptor, bits 7..0 (spec/30_encoding.md R112). -/
def descKind (d : Descriptor) : Byte := d.extractLsb' 0 8

/-- `CLEN` of a descriptor, bits 23..8 (spec/30_encoding.md R112). -/
def descClen (d : Descriptor) : Word := d.extractLsb' 8 16

/-- The kind a code stands for; 0 and 7 to 255 are unsupported (spec/30_encoding.md R112, R113). -/
def kindOfCode (c : Byte) : Option FieldKind :=
  match c.toNat with
  | 1 => some .bool
  | 2 => some .int16
  | 3 => some .uint16
  | 4 => some .int32
  | 5 => some .uint32
  | 6 => some .string
  | _ => none

/-- The code of a kind (spec/10_state.md R36). -/
def codeOfKind : FieldKind → Byte
  | .bool => 1
  | .int16 => 2
  | .uint16 => 3
  | .int32 => 4
  | .uint32 => 5
  | .string => 6

/-- `pad(len) = 2 − len % 2` (spec/30_encoding.md R108). -/
def strPad (len : Nat) : Nat := 2 - len % 2

/-- `strWords(len) = (len + pad(len)) / 2` (spec/30_encoding.md R109). -/
def strWords (len : Nat) : Nat := (len + strPad len) / 2

/-- The width of a field in words (spec/45_record_marshaler.md R230). -/
def fieldWidth (k : FieldKind) (clen : Word) : Nat :=
  match k with
  | .bool => 1
  | .int16 => 1
  | .uint16 => 1
  | .int32 => 2
  | .uint32 => 2
  | .string => strWords clen.toNat

/-- The variant of a field value matches the kind (spec/45_record_marshaler.md R240). -/
def variantFits : FieldKind → FieldVal → Bool
  | .bool, .b _ => true
  | .int16, .i16 _ => true
  | .uint16, .u16 _ => true
  | .int32, .i32 _ => true
  | .uint32, .u32 _ => true
  | .string, .s _ => true
  | _, _ => false

/-- The layout the table holds: its first `LT.N` entries (spec/10_state.md R36). -/
def State.layout (s : State) : List LtEntry := s.ltF.take s.ltN

/-- The words of a layout, the source's `sizeOf` (spec/45_record_marshaler.md R234). -/
def layoutWords (es : List LtEntry) : Nat := (es.map fun e => e.w.toNat).sum

/-! ### The device operand -/

/-- The row of `DEVTAB` a device identifier indexes; none when `DEV ≥ NDEV` (spec/40_device_table.md R140, R145). -/
def State.device (s : State) (dev : Byte) : Option DevRow := s.params.devtab[dev.toNat]?

/-- The number of a kind, as `DT.KIND` reports it: Bit 1, Word 0 (spec/40_device_table.md R142). -/
def kindNumber : DevKind → Word
  | .bit => 1
  | .word => 0

/-- `sub(d)`: the subcommand of a device of this kind (spec/40_device_table.md R144). -/
def subcommand : DevKind → Word
  | .bit => Config.subBit
  | .word => Config.subWord

end Sys2Proof.Machine
end

