-- ==== Sys2Proof/Machine/Ops.lean ====
section
/-! DEFINITION. The shared operations: issuing an operation (spec/10_state.md R21, R23; spec/20_memory.md R70),
its two completions (spec/60_exceptions.md R283, R284, R287), the transport pull (spec/42_response_decoder.md
R171), and the reset of the block (spec/70_reset_and_hazards.md R320, R321). An error completion is this
hardware's whole counterpart of taking an exception (R290), and there is no return from one (R291). -/

namespace Sys2Proof.Machine

/-- What a step of this machine answers. -/
abbrev Out := Host.Outcome State Fault Refusal

/-! ### Completion -/

/-- `OLEN` for that many items: their number. Beyond what 32 bits count the spec states no value, so it is free
(spec/10_state.md R27; log 9). -/
def olenOf (n : Nat) : BitVec 32 := if n < 2 ^ 32 then BitVec.ofNat 32 n else Config.olenBeyond n

/-- `complete(kind, sub, code)`, the error completion (spec/60_exceptions.md R284). -/
def State.complete (s : State) (kind : ErrKind) (sub : SubCause) (code : Word) : State :=
  { s with dout := [], olen := 0, status := errStatus kind sub code, phase := .idle, busy := false }

/-- `done()` after the operation has set `DOUT` (spec/60_exceptions.md R283). -/
def State.doneWith (s : State) (out : List Item) : State :=
  { s with dout := out, olen := olenOf out.length, status := 0, phase := .idle, busy := false }

/-- More items than `DOUT` can hold (spec/60_exceptions.md R287). -/
def State.overCapacity (s : State) (n : Nat) : Bool :=
  match s.params.maxItems with
  | none => false
  | some m => decide (m < n)

/-- The end of an operation that produces a sequence: success, or Capacity(ITEM_LIMIT) when `DOUT` cannot hold it
(spec/60_exceptions.md R283, R287). -/
def State.finish (s : State) (out : List Item) : State :=
  if s.overCapacity out.length then s.complete .capacity .itemLimit 0 else s.doneWith out

/-- The successful end of an operation that produces a scalar: `RES`, and an empty `DOUT` (spec/10_state.md R26,
spec/60_exceptions.md R283). -/
def State.finishRes (s : State) (v : Word) : State := { s with res := v }.doneWith []

/-! ### Issue -/

/-- The host's write of the operand registers, and `BUSY` (spec/10_state.md R21, R23). -/
def State.loadOperands (s : State) (op : Byte) (f : CwFields) : State :=
  { s with op := op, dev := f.dev, addr := f.addr, count := f.count, len := f.len, busy := true }

/-- Issues an operation: only while `BUSY = 0` (spec/20_memory.md R70) and with a `DIN` the port can carry
(spec/60_exceptions.md R287); the operand registers are loaded and `BUSY` is set, then the operation's own
effect follows in the same atomic step. -/
def issue (op : Byte) (f : CwFields) (s : State) (effect : State → Out) : Out :=
  if s.busy then .refused .commandPortBusy
  else if s.overCapacity s.din.length then .refused .dinTooLong
  else effect (s.loadOperands op f)

/-- Reads `DIN` as items of the operation's type (spec/10_state.md R30). -/
def withDin {α : Type} (as? : Item → Option α) (s : State) (effect : List α → Out) : Out :=
  match itemsAs as? s.din with
  | some xs => effect xs
  | none => .refused .dinItemType

/-- The common device check (spec/40_device_table.md R145). -/
def withDevice (s : State) (effect : DevRow → Out) : Out :=
  match s.device s.dev with
  | some row => effect row
  | none => .next (s.complete .unknownDevice .none 0)

/-- The common layout check (spec/45_record_marshaler.md R235). -/
def withLayout (s : State) (effect : Out) : Out :=
  if s.ltValid then effect else .next (s.complete .shapeError .noLayout 0)

/-- Issue of an undefined `OP`: IllegalOp, and nothing but `STATUS`, `DOUT`, `OLEN` changes; the operand registers
and `DIN` keep their values (spec/30_encoding.md R94; log 10), whatever was presented as `DIN` (log 30). -/
def illegalOp (s : State) : Out := .next (s.complete .illegalOp .none 0)

/-! ### The transport pull -/

/-- What a pull yields (spec/42_response_decoder.md R171). -/
inductive Pull where
  | bytes (bs : List Byte)
  | eof
  | ioError
  /-- Not enabled: the stream is open and holds too few bytes. -/
  | wait
deriving DecidableEq, Repr

/-- `RxReadExact(n)` (spec/42_response_decoder.md R171). -/
def rxReadExact (n : Nat) (s : State) : Pull × State :=
  if n ≤ s.rxBytes.length then (.bytes (s.rxBytes.take n), { s with rxBytes := s.rxBytes.drop n })
  else
    match s.rxTerm with
    | .eof => (.eof, { s with rxBytes := [] })
    | .ioError => (.ioError, { s with rxBytes := [] })
    | .stillOpen => (.wait, s)

/-! ### The layout table -/

/-- The table without a layout; its entries become unspecified (spec/45_record_marshaler.md R232; log 8). -/
def State.clearLayout (s : State) : State :=
  { s with ltValid := false, ltN := 0, ltSize := 0, ltF := [], draws := s.draws + 1 }

/-- The table with an accepted layout (spec/45_record_marshaler.md R231). -/
def State.setLayout (s : State) (es : List LtEntry) : State :=
  { s with ltValid := true, ltN := es.length, ltSize := BitVec.ofNat 16 (layoutWords es), ltF := es }

/-! ### Reset -/

/-- The `RESET` input: every element at its value of spec/10_state.md R45, those it leaves unspecified free; `RX`,
the parameters and what the other agents will do untouched (spec/70_reset_and_hazards.md R320, R321; log 7). -/
def State.resetBlock (s : State) : State :=
  { s with
    op := Config.freeByte s.draws 0, dev := Config.freeByte s.draws 1
    addr := Config.freeWord s.draws 0, count := Config.freeWord s.draws 1, len := Config.freeWord s.draws 2
    busy := false, status := 0, res := 0, olen := 0, din := [], dout := []
    phase := .idle, shl := Config.freeNibble s.draws 0, blen := Config.freeWord s.draws 3
    ltValid := false, ltN := 0, ltSize := 0, ltF := [], draws := s.draws + 1 }

end Sys2Proof.Machine
end

