-- ==== Sys2Proof/Machine/BitCodec.lean ====
section
/-! DEFINITION. The bit codec unit (spec/43_bit_codec.md), format `BITPAIR` (spec/30_encoding.md R104). -/

namespace Sys2Proof.Machine

/-- `b2n` on a byte (spec/00_scope.md R12). -/
def b2n (b : Bool) : Byte := if b then 1 else 0

/-- One byte of two booleans, the first at bit 4 (spec/43_bit_codec.md R200). -/
def packPair (a b : Bool) : Byte := (b2n a <<< 4) ||| b2n b

/-- The pairs of an even-length list, packed in order (spec/43_bit_codec.md R200, R201). -/
def packPairs : List Bool → List Byte
  | a :: b :: rest => packPair a b :: packPairs rest
  | _ => []

/-- `bitEncode`: a synthetic `false` completes an odd count (spec/43_bit_codec.md R200). -/
def bitEncode (v : List Bool) : List Byte :=
  packPairs (if v.length % 2 = 1 then v ++ [false] else v)

/-- The two booleans of a byte: bit 4, then bit 0; the other bits are ignored (spec/43_bit_codec.md R202). -/
def unpackByte (b : Byte) : List Bool := [b &&& 0x10 != 0, b &&& 0x01 != 0]

/-- All booleans of a payload (spec/43_bit_codec.md R202). -/
def unpackBytes (bs : List Byte) : List Bool := bs.flatMap unpackByte

/-- `BC.ENC` (spec/43_bit_codec.md R200). -/
def execBcEnc (f : CwFields) (s : State) : Out :=
  issue 0x40 f s fun s => withDin Item.bool? s fun v => .next (s.finish ((bitEncode v).map .byte))

/-- `BC.DEC` (spec/43_bit_codec.md R202, R203). -/
def execBcDec (f : CwFields) (s : State) : Out :=
  issue 0x41 f s fun s => withDin Item.byte? s fun bs =>
    if 2 * bs.length < s.count.toNat then .next (s.complete .shapeError .shortBitPayload 0)
    else .next (s.finish (((unpackBytes bs).take s.count.toNat).map .bool))

end Sys2Proof.Machine
end

