-- ==== Sys2Proof/Machine/DeviceTable.lean ====
section
/-! DEFINITION. The device table unit (spec/40_device_table.md). -/

namespace Sys2Proof.Machine

/-- `DT.KIND` (spec/40_device_table.md R142). -/
def execDtKind (f : CwFields) (s : State) : Out :=
  issue 0x10 f s fun s => withDevice s fun row => .next (s.finishRes (kindNumber row.kind))

/-- `DT.CODE` (spec/40_device_table.md R143). -/
def execDtCode (f : CwFields) (s : State) : Out :=
  issue 0x11 f s fun s => withDevice s fun row => .next (s.finishRes (row.code.setWidth 16))

/-- `DT.SUBCMD` (spec/40_device_table.md R144). -/
def execDtSubcmd (f : CwFields) (s : State) : Out :=
  issue 0x12 f s fun s => withDevice s fun row => .next (s.finishRes (subcommand row.kind))

end Sys2Proof.Machine
end

