-- ==== Sys2Proof/Machine/FrameEncoder.lean ====
section
/-! DEFINITION. The frame encoder unit (spec/41_frame_encoder.md). -/

namespace Sys2Proof.Machine

/-- `req(cmd, sub, data)`: one request frame, defined only when `6 + |data| ≤ 0xFFFF`
(spec/41_frame_encoder.md R150). -/
def req (cmd sub : Word) (data : List Byte) : Option (List Byte) :=
  if 6 + data.length ≤ 0xFFFF then
    some (Config.hdr ++ le16 (BitVec.ofNat 16 (6 + data.length)) ++ le16 Config.monTimer ++ le16 cmd ++
      le16 sub ++ data)
  else none

/-- `dev6(d, addr, count)`: the first six bytes of the command data of a read or write
(spec/41_frame_encoder.md R150). -/
def dev6 (row : DevRow) (addr count : Word) : List Byte :=
  le16 addr ++ [0x00] ++ [row.code] ++ le16 count

/-- Delivers a frame in `DOUT`, one byte an item (spec/41_frame_encoder.md R151, R159). A frame that `req` does
not define is a fault (log 19). -/
def deliverFrame (s : State) : Option (List Byte) → Out
  | some bytes => .next (s.finish (bytes.map .byte))
  | none => .fault .frameUndefined

/-- `FE.READ` (spec/41_frame_encoder.md R151, R157). -/
def execFeRead (f : CwFields) (s : State) : Out :=
  issue 0x20 f s fun s => withDevice s fun row =>
    if s.count.toNat > s.params.maxCount then .next (s.complete .capacity .countLimit 0)
    else deliverFrame s (req Config.cmdRead (subcommand row.kind) (dev6 row s.addr s.count))

/-- `FE.WRITE` (spec/41_frame_encoder.md R153 to R155, R157). -/
def execFeWrite (f : CwFields) (s : State) : Out :=
  issue 0x21 f s fun s => withDin Item.byte? s fun payload => withDevice s fun row =>
    if s.count.toNat > s.params.maxCount then .next (s.complete .capacity .countLimit 0)
    else if payload.length > s.params.maxPayload then .next (s.complete .capacity .frameLength 0)
    else deliverFrame s (req Config.cmdWrite (subcommand row.kind) (dev6 row s.addr s.count ++ payload))

/-- `FE.SELFTEST` (spec/41_frame_encoder.md R156). -/
def execFeSelftest (f : CwFields) (s : State) : Out :=
  issue 0x22 f s fun s => deliverFrame s (req Config.cmdSelftest s.params.stSub s.params.stData)

end Sys2Proof.Machine
end

