-- ==== Sys2Proof/Machine/WordCodec.lean ====
section
/-! DEFINITION. The word codec unit (spec/44_word_codec.md), formats `WORD` and `STR` (spec/30_encoding.md R106,
R108), and the two character helpers the record marshaler shares (R216). -/

namespace Sys2Proof.Machine

/-- The bytes of words, each low byte first (spec/44_word_codec.md R210). -/
def wordEncode (ws : List Word) : List Byte := ws.flatMap le16

/-- The words of consecutive byte pairs, low byte first (spec/44_word_codec.md R212). -/
def wordDecode : List Byte → List Word
  | lo :: hi :: rest => un16 lo hi :: wordDecode rest
  | _ => []

/-- `pack_chars(cs, nwords)` (spec/44_word_codec.md R216). -/
def packChars (cs : List Byte) (nwords : Nat) : List Word :=
  wordDecode (cs ++ List.replicate (2 * nwords - cs.length) 0)

/-- `unpack_chars(ws)` (spec/44_word_codec.md R216). -/
def unpackChars (ws : List Word) : List Byte := ws.flatMap fun w => [w.extractLsb' 0 8, w.extractLsb' 8 8]

/-- The encoded string: its characters and `2 − len % 2` NUL bytes (spec/44_word_codec.md R214). -/
def stringEncode (cs : List Byte) : List Byte := cs ++ List.replicate (strPad cs.length) 0

/-- `WC.ENC` (spec/44_word_codec.md R210). -/
def execWcEnc (f : CwFields) (s : State) : Out :=
  issue 0x50 f s fun s => withDin Item.word? s fun ws => .next (s.finish ((wordEncode ws).map .byte))

/-- `WC.DEC` (spec/44_word_codec.md R212). -/
def execWcDec (f : CwFields) (s : State) : Out :=
  issue 0x51 f s fun s => withDin Item.byte? s fun bs =>
    if bs.length % 2 = 1 then .next (s.complete .malformedFrame .oddLength 0)
    else .next (s.finish ((wordDecode bs).map .word))

/-- `WC.SENC` (spec/44_word_codec.md R214). -/
def execWcSenc (f : CwFields) (s : State) : Out :=
  issue 0x52 f s fun s => withDin Item.char? s fun cs => .next (s.finish ((stringEncode cs).map .byte))

/-- `WC.SDEC` (spec/44_word_codec.md R217, R218). -/
def execWcSdec (f : CwFields) (s : State) : Out :=
  issue 0x53 f s fun s => withDin Item.byte? s fun bs =>
    if bs.length % 2 = 1 then .next (s.complete .malformedFrame .oddLength 0)
    else
      let cs := unpackChars (wordDecode bs)
      if s.len.toNat > bs.length then .next (s.complete .shapeError .stringTooShort 0)
      else .next (s.finish ((cs.take s.len.toNat).map .char))

end Sys2Proof.Machine
end

