-- ==== Sys2Proof/Machine/RecordMarshaler.lean ====
section
/-! DEFINITION. The record marshaler unit (spec/45_record_marshaler.md), formats `REC` and `LD`
(spec/30_encoding.md R110 to R113). -/

namespace Sys2Proof.Machine

/-- The walk of `RM.LAYOUT` over its descriptors, with the words counted so far: the entries, or the error of the
first descriptor that fails (spec/45_record_marshaler.md R231, R233). -/
def buildLayout : Nat → List Descriptor → Except (ErrKind × SubCause) (List LtEntry)
  | _, [] => .ok []
  | total, d :: ds =>
    match kindOfCode (descKind d) with
    | none => .error (.unsupportedFieldKind, .none)
    | some k =>
      if k = .string ∧ descClen d = 0 then .error (.missingFieldMetadata, .none)
      else
        let w := fieldWidth k (descClen d)
        if total + w > 0xFFFF then .error (.capacity, .layoutSize)
        else
          match buildLayout (total + w) ds with
          | .ok es => .ok (⟨k, if k = .string then descClen d else 0, BitVec.ofNat 16 w⟩ :: es)
          | .error e => .error e

/-- `RM.LAYOUT` (spec/45_record_marshaler.md R231, R232): the table is cleared first, and holds a layout again
only when every descriptor is accepted. -/
def execRmLayout (f : CwFields) (s : State) : Out :=
  issue 0x60 f s fun s => withDin Item.desc? s fun ds =>
    let s := s.clearLayout
    if ds.length > s.params.maxFields then .next (s.complete .capacity .fieldLimit 0)
    else
      match buildLayout 0 ds with
      | .ok es => .next ((s.setLayout es).doneWith [])
      | .error e => .next (s.complete e.1 e.2 0)

/-- `RM.SIZEOF` (spec/45_record_marshaler.md R234, R235). -/
def execRmSizeof (f : CwFields) (s : State) : Out :=
  issue 0x61 f s fun s => withLayout s (.next (s.finishRes s.ltSize))

/-- `fieldDecode(k, c, s)` on the field's word slice (spec/45_record_marshaler.md R237, R238). A word the slice
does not have reads 0, which no table that `RM.LAYOUT` wrote can show (log 21). -/
def fieldDecode (e : LtEntry) (ws : List Word) : FieldVal :=
  match e.kind with
  | .bool => .b (ws.getD 0 0 != 0)
  | .int16 => .i16 (sext16 (ws.getD 0 0))
  | .uint16 => .u16 (ws.getD 0 0)
  | .int32 => .i32 (sext32 (un32 (ws.getD 0 0) (ws.getD 1 0)))
  | .uint32 => .u32 (un32 (ws.getD 0 0) (ws.getD 1 0))
  | .string => .s ((unpackChars ws).take e.clen.toNat)

/-- The walk of `RM.DEC`: each field takes its width from the words that are left (spec/45_record_marshaler.md
R236, spec/30_encoding.md R110). -/
def recordDecode : List LtEntry → List Word → List FieldVal
  | [], _ => []
  | e :: es, ws => fieldDecode e (ws.take e.w.toNat) :: recordDecode es (ws.drop e.w.toNat)

/-- `RM.DEC` (spec/45_record_marshaler.md R235, R236). -/
def execRmDec (f : CwFields) (s : State) : Out :=
  issue 0x62 f s fun s => withDin Item.word? s fun ws => withLayout s (
    if ws.length ≠ s.ltSize.toNat then .next (s.complete .shapeError .wordCount 0)
    else .next (s.finish ((recordDecode s.layout ws).map .val)))

/-- `fieldEncode(k, c, v)` (spec/45_record_marshaler.md R241). -/
def fieldEncode (e : LtEntry) (v : FieldVal) : List Word :=
  match v with
  | .b x => [if x then 0x0001 else 0x0000]
  | .i16 x => [trunc16 x]
  | .u16 x => [x]
  | .i32 x => words32 (trunc32 x)
  | .u32 x => words32 x
  | .s cs => packChars cs (strWords e.clen.toNat)

/-- A String value has exactly the declared number of characters (spec/45_record_marshaler.md R242). -/
def lengthFits (e : LtEntry) : FieldVal → Bool
  | .s cs => cs.length == e.clen.toNat
  | .b _ => true
  | .i16 _ => true
  | .u16 _ => true
  | .i32 _ => true
  | .u32 _ => true

/-- The walk of `RM.ENC`: the words, or the sub-cause of the first field that fails (spec/45_record_marshaler.md
R240). -/
def recordEncode : List LtEntry → List FieldVal → Except SubCause (List Word)
  | e :: es, v :: vs =>
    if !variantFits e.kind v then .error .fieldVariant
    else if !lengthFits e v then .error .stringLength
    else
      match recordEncode es vs with
      | .ok ws => .ok (fieldEncode e v ++ ws)
      | .error c => .error c
  | _, _ => .ok []

/-- `RM.ENC` (spec/45_record_marshaler.md R235, R240). -/
def execRmEnc (f : CwFields) (s : State) : Out :=
  issue 0x63 f s fun s => withDin Item.val? s fun vs => withLayout s (
    if vs.length ≠ s.ltN then .next (s.complete .shapeError .fieldCount 0)
    else
      match recordEncode s.layout vs with
      | .ok ws => .next (s.finish (ws.map .word))
      | .error c => .next (s.complete .shapeError c 0))

end Sys2Proof.Machine
end

