-- ==== Sys2Proof/WellFormed.lean ====
section
/-! DEFINITION. Which instruction terms stand for something the spec's encodings can carry. Every command
word is well formed (spec/30_encoding.md R92); a frame must fit its 16-bit length field and a response has
exactly the ignored sub-header bytes of its form (R96, R98, R100, R101). -/

namespace Sys2Proof

/-- A write payload fits the length field when `12 + |payload| ≤ 0xFFFF` (spec/30_encoding.md R96). -/
def payloadFits (payload : List Byte) : Bool := decide (payload.length ≤ 65523)

/-- Self-test data fits the length field when `6 + |data| ≤ 0xFFFF` (spec/30_encoding.md R98). -/
def selftestFits (data : List Byte) : Bool := decide (data.length ≤ 65529)

/-- A response body fits the length field (spec/30_encoding.md R100). -/
def bodyFits (body : List Byte) : Bool := decide (body.length ≤ 65535)

/-- The response carries exactly `SHL − 2` ignored sub-header bytes (spec/30_encoding.md R102). -/
def routingFits (shl : Nat) (routing : List Byte) : Bool := routing.length == shl - 2

/-- The instruction is one that an encoding of spec/30_encoding.md stands for. -/
def Instr.wf : Instr → Bool
  | .dtKind _ => true
  | .dtCode _ => true
  | .dtSubcmd _ => true
  | .feRead _ => true
  | .feWrite _ => true
  | .feSelftest _ => true
  | .rdRecv _ => true
  | .bcEnc _ => true
  | .bcDec _ => true
  | .wcEnc _ => true
  | .wcDec _ => true
  | .wcSenc _ => true
  | .wcSdec _ => true
  | .rmLayout _ => true
  | .rmSizeof _ => true
  | .rmDec _ => true
  | .rmEnc _ => true
  | .reqRead _ _ _ _ => true
  | .reqWrite _ _ _ _ payload => payloadFits payload
  | .reqSelftest _ data => selftestFits data
  | .respD0 routing body => routingFits 8 routing && bodyFits body
  | .respD4 routing body => routingFits 12 routing && bodyFits body

end Sys2Proof
end

