-- ==== Sys2Proof/Decode.lean ====
section
/-! DEFINITION. The decoder, total on any command word and any byte sequence, which rejects by name, and after
it the encoder. Three ports carry instructions, and the port says which format is read: the command port
carries command words (spec/30_encoding.md R90 to R94), the outbound side request frames (R95 to R98), the
inbound side response frames (R100 to R103). -/

namespace Sys2Proof

/-- What an instruction is on its port. -/
inductive Code where
  /-- A command word on the command port. -/
  | command (cw : CmdWord)
  /-- The bytes of one request frame, first byte first. -/
  | outbound (bytes : List Byte)
  /-- The bytes of one response frame, first byte first. -/
  | inbound (bytes : List Byte)
deriving DecidableEq, Repr

/-- Why a code stands for no instruction. -/
inductive DecodeError where
  /-- `OP` is not in the table (spec/30_encoding.md R94). -/
  | illegalOp (op : Byte)
  /-- The first byte of a response is neither `d0` nor `d4` (spec/30_encoding.md R101). -/
  | invalidStart
  /-- The bytes end before the fixed fields do. -/
  | truncated
  /-- The first seven bytes of a request are not `HDR` (spec/30_encoding.md R95). -/
  | badHeader
  /-- The monitoring timer is not `MON_TIMER` (spec/30_encoding.md R95). -/
  | badTimer
  /-- The command is none of the three (spec/30_encoding.md R97). -/
  | badCommand
  /-- The subcommand is neither the bit nor the word one (spec/30_encoding.md R97). -/
  | badSubcommand
  /-- The reserved byte at offset 17 is not zero (spec/30_encoding.md R95). -/
  | badReserved
  /-- The length field does not count the bytes that follow it (spec/30_encoding.md R96, R101). -/
  | badLength
deriving DecidableEq, Repr

/-! ### Command words -/

/-- `OP`, bits 7..0 (spec/30_encoding.md R91). -/
def cwOp (cw : CmdWord) : Byte := cw.extractLsb' 0 8

/-- The operand fields `DEV` 15..8, `ADDR` 31..16, `COUNT` 47..32, `LEN` 63..48 (spec/30_encoding.md R91). -/
def cwFields (cw : CmdWord) : CwFields where
  dev := cw.extractLsb' 8 8
  addr := cw.extractLsb' 16 16
  count := cw.extractLsb' 32 16
  len := cw.extractLsb' 48 16

/-- The operation an `OP` value selects (the table of spec/30_encoding.md R93). -/
def opInstr (op : Byte) (f : CwFields) : Option Instr :=
  match op.toNat with
  | 0x10 => some (.dtKind f)
  | 0x11 => some (.dtCode f)
  | 0x12 => some (.dtSubcmd f)
  | 0x20 => some (.feRead f)
  | 0x21 => some (.feWrite f)
  | 0x22 => some (.feSelftest f)
  | 0x30 => some (.rdRecv f)
  | 0x40 => some (.bcEnc f)
  | 0x41 => some (.bcDec f)
  | 0x50 => some (.wcEnc f)
  | 0x51 => some (.wcDec f)
  | 0x52 => some (.wcSenc f)
  | 0x53 => some (.wcSdec f)
  | 0x60 => some (.rmLayout f)
  | 0x61 => some (.rmSizeof f)
  | 0x62 => some (.rmDec f)
  | 0x63 => some (.rmEnc f)
  | _ => none

/-- Reads a command word (spec/30_encoding.md R90 to R94). -/
def decodeCommand (cw : CmdWord) : Except DecodeError Instr :=
  match opInstr (cwOp cw) (cwFields cw) with
  | some i => .ok i
  | none => .error (.illegalOp (cwOp cw))

/-! ### Request frames -/

/-- The kind a subcommand stands for (spec/30_encoding.md R97). -/
def subKind (sub : Word) : Option DevKind :=
  if sub = Config.subBit then some .bit else if sub = Config.subWord then some .word else none

/-- Reads the device part of a read or write frame, from offset 15 on (spec/30_encoding.md R95): address, the
reserved zero byte, device code, count; what follows is the payload. -/
def decodeDevice (sub : Word) (data : List Byte) :
    Except DecodeError (DevKind × Word × Byte × Word × List Byte) :=
  match data with
  | a0 :: a1 :: r :: code :: n0 :: n1 :: payload =>
    match subKind sub with
    | none => .error .badSubcommand
    | some k =>
      if r = 0 then .ok (k, Machine.un16 a0 a1, code, Machine.un16 n0 n1, payload) else .error .badReserved
  | _ => .error .truncated

/-- Reads what follows the subcommand, by command (spec/30_encoding.md R97, R98). A read frame carries no
payload: its body is exactly 12 bytes (R96). -/
def decodeRequest (cmd sub : Word) (data : List Byte) : Except DecodeError Instr :=
  if cmd = Config.cmdRead then
    match decodeDevice sub data with
    | .ok (k, addr, code, count, []) => .ok (.reqRead k addr code count)
    | .ok _ => .error .badLength
    | .error e => .error e
  else if cmd = Config.cmdWrite then
    match decodeDevice sub data with
    | .ok (k, addr, code, count, payload) => .ok (.reqWrite k addr code count payload)
    | .error e => .error e
  else if cmd = Config.cmdSelftest then .ok (.reqSelftest sub data)
  else .error .badCommand

/-- Reads one whole request frame, format `REQ` (spec/30_encoding.md R95, R96). -/
def decodeOutbound (bytes : List Byte) : Except DecodeError Instr :=
  match bytes with
  | h0 :: h1 :: h2 :: h3 :: h4 :: h5 :: h6 :: l0 :: l1 :: t0 :: t1 :: c0 :: c1 :: s0 :: s1 :: data =>
    if [h0, h1, h2, h3, h4, h5, h6] ≠ Config.hdr then .error .badHeader
    else if (Machine.un16 l0 l1).toNat ≠ 6 + data.length then .error .badLength
    else if Machine.un16 t0 t1 ≠ Config.monTimer then .error .badTimer
    else decodeRequest (Machine.un16 c0 c1) (Machine.un16 s0 s1) data
  | _ => .error .truncated

/-! ### Response frames -/

/-- The sub-header length a discriminator chooses (spec/30_encoding.md R101). -/
def discLength (b : Byte) : Option Nat :=
  if b = Config.discNoSerial then some 8 else if b = Config.discSerial then some 12 else none

/-- Splits what follows the discriminator into the ignored sub-header bytes and the body, where the last two
sub-header bytes give the body's length (spec/30_encoding.md R100, R101). -/
def splitResponse (shl : Nat) (rest : List Byte) : Except DecodeError (List Byte × List Byte) :=
  match rest.drop (shl - 2) with
  | l0 :: l1 :: body =>
    if body.length = (Machine.un16 l0 l1).toNat then .ok (rest.take (shl - 2), body) else .error .badLength
  | _ => .error .truncated

/-- Reads one whole response frame, format `RESP` (spec/30_encoding.md R100 to R102). -/
def decodeInbound (bytes : List Byte) : Except DecodeError Instr :=
  match bytes with
  | [] => .error .truncated
  | b :: rest =>
    if b = Config.discNoSerial then
      match splitResponse 8 rest with
      | .ok (routing, body) => .ok (.respD0 routing body)
      | .error e => .error e
    else if b = Config.discSerial then
      match splitResponse 12 rest with
      | .ok (routing, body) => .ok (.respD4 routing body)
      | .error e => .error e
    else .error .invalidStart

/-- The decoder: any code of any port, read or rejected by name. -/
def decode : Code → Except DecodeError Instr
  | .command cw => decodeCommand cw
  | .outbound bytes => decodeOutbound bytes
  | .inbound bytes => decodeInbound bytes

/-! ### The encoder -/

/-- The command word of an operation: `OP | DEV << 8 | ADDR << 16 | COUNT << 32 | LEN << 48`
(spec/30_encoding.md R91). -/
def encodeCw (op : Byte) (f : CwFields) : CmdWord :=
  op.setWidth 64 ||| (f.dev.setWidth 64 <<< 8) ||| (f.addr.setWidth 64 <<< 16) |||
    (f.count.setWidth 64 <<< 32) ||| (f.len.setWidth 64 <<< 48)

/-- The subcommand of a kind (spec/30_encoding.md R97). -/
def kindSub : DevKind → Word
  | .bit => Config.subBit
  | .word => Config.subWord

/-- A request frame from its fields by byte offset (the table of spec/30_encoding.md R95, length by R96). -/
def encodeRequest (cmd sub : Word) (data : List Byte) : List Byte :=
  Config.hdr ++ Machine.le16 (BitVec.ofNat 16 (6 + data.length)) ++ Machine.le16 Config.monTimer ++
    Machine.le16 cmd ++ Machine.le16 sub ++ data

/-- The six bytes at offsets 15 to 20 of a read or write frame (spec/30_encoding.md R95). -/
def encodeDevice (addr : Word) (code : Byte) (count : Word) : List Byte :=
  Machine.le16 addr ++ [0x00, code] ++ Machine.le16 count

/-- A response frame from its fields by byte offset (the table of spec/30_encoding.md R100). -/
def encodeResponse (disc : Byte) (routing body : List Byte) : List Byte :=
  disc :: (routing ++ Machine.le16 (BitVec.ofNat 16 body.length) ++ body)

/-- The code of an instruction. -/
def encode : Instr → Code
  | .dtKind f => .command (encodeCw 0x10 f)
  | .dtCode f => .command (encodeCw 0x11 f)
  | .dtSubcmd f => .command (encodeCw 0x12 f)
  | .feRead f => .command (encodeCw 0x20 f)
  | .feWrite f => .command (encodeCw 0x21 f)
  | .feSelftest f => .command (encodeCw 0x22 f)
  | .rdRecv f => .command (encodeCw 0x30 f)
  | .bcEnc f => .command (encodeCw 0x40 f)
  | .bcDec f => .command (encodeCw 0x41 f)
  | .wcEnc f => .command (encodeCw 0x50 f)
  | .wcDec f => .command (encodeCw 0x51 f)
  | .wcSenc f => .command (encodeCw 0x52 f)
  | .wcSdec f => .command (encodeCw 0x53 f)
  | .rmLayout f => .command (encodeCw 0x60 f)
  | .rmSizeof f => .command (encodeCw 0x61 f)
  | .rmDec f => .command (encodeCw 0x62 f)
  | .rmEnc f => .command (encodeCw 0x63 f)
  | .reqRead k addr code count =>
    .outbound (encodeRequest Config.cmdRead (kindSub k) (encodeDevice addr code count))
  | .reqWrite k addr code count payload =>
    .outbound (encodeRequest Config.cmdWrite (kindSub k) (encodeDevice addr code count ++ payload))
  | .reqSelftest sub data => .outbound (encodeRequest Config.cmdSelftest sub data)
  | .respD0 routing body => .inbound (encodeResponse Config.discNoSerial routing body)
  | .respD4 routing body => .inbound (encodeResponse Config.discSerial routing body)

/-! ### Words as spec/opcode_table.json numbers them -/

/-- A response frame from its leading bytes, zero from there on (log 15). -/
def tableResponse (shl : Nat) (lead : List Byte) : List Byte :=
  let head := Machine.padTo (1 + shl) lead
  Machine.padTo (1 + shl + (Machine.un16 (head.getD (shl - 1) 0) (head.getD shl 0)).toNat) head

/-- A request frame from its leading bytes, zero from there on: as many bytes as its length field counts, and at least
the shortest frame of its command, 21 bytes for read and write, 15 for self-test. Where the row gives the length
field no bits (its mask is zero there) and it reads 0, it is filled with the frame's own length (log 15). -/
def tableRequest (lead : List Byte) : List Byte :=
  let bs := Machine.padTo (if lead[11]? = some 0x17 then 15 else 21) lead
  let length := Machine.un16 (bs.getD 7 0) (bs.getD 8 0)
  if length = 0 then bs.take 7 ++ Machine.le16 (BitVec.ofNat 16 (bs.length - 9)) ++ bs.drop 9
  else Machine.padTo (9 + length.toNat) bs

/-- The code that a word of the opcode table stands for: a command word when it has at most 64 bits, but for a
first byte `d0` or `d4` on less than 64 bits, which starts a response row; a request frame when it has more,
its bytes written first byte leftmost as the table writes them, or else lowest byte first (log 15). -/
def tableCode (nbits w : Nat) : Code :=
  if nbits ≤ 64 then
    match discLength (BitVec.ofNat 8 w) with
    | some shl => if nbits < 64 then .inbound (tableResponse shl (Machine.bytesLsbFirst (nbits / 8) w))
                  else .command (BitVec.ofNat 64 w)
    | none => .command (BitVec.ofNat 64 (w % 2 ^ nbits))
  else
    let msb := Machine.bytesMsbFirst (nbits / 8) w
    let lsb := Machine.bytesLsbFirst (nbits / 8) w
    let lead := if lsb.take 7 = Config.hdr then lsb else msb
    match lead with
    | b :: _ =>
      match discLength b with
      | some shl => .inbound (tableResponse shl lead)
      | none => .outbound (tableRequest lead)
    | [] => .outbound []

/-- The instruction the decoder reads from a word of the opcode table. -/
def decodeTableWord (nbits w : Nat) : Option Instr :=
  match decode (tableCode nbits w) with
  | .ok i => some i
  | .error _ => none

end Sys2Proof
end

