-- ==== Sys2Proof/Machine/ResponseDecoder.lean ====
section
/-! DEFINITION. The response decoder unit (spec/42_response_decoder.md): the issue step of `RD.RECV`, its three
continuation steps, and the whole operation as one function of the stream (R179). -/

namespace Sys2Proof.Machine

/-- `RD.RECV`, the issue step: `BUSY` is set by the issue and the start pull becomes outstanding
(spec/42_response_decoder.md R172). -/
def execRdRecv (f : CwFields) (s : State) : Out :=
  issue 0x30 f s fun s => .next { s with phase := .waitStart }

/-- The three ways a pull can end other than in bytes: an error completion, or no step at all
(spec/42_response_decoder.md R173 to R175, R180). -/
def pullThen (r : Pull × State) (onBytes : List Byte → State → State) : Option State :=
  match r.1 with
  | .bytes bs => some (onBytes bs r.2)
  | .eof => some (r.2.complete .transportIo .eof 0)
  | .ioError => some (r.2.complete .transportIo .ioError 0)
  | .wait => none

/-- The start step's work on its byte (spec/42_response_decoder.md R173). -/
def onStart (bs : List Byte) (s : State) : State :=
  let b := bs.getD 0 0
  if b = Config.discNoSerial then { s with shl := 8, phase := .waitSubhdr }
  else if b = Config.discSerial then { s with shl := 12, phase := .waitSubhdr }
  else s.complete .malformedFrame .invalidStart 0

/-- The sub-header step's work on its bytes: the last two are the body length (spec/42_response_decoder.md R174). -/
def onSubhdr (h : List Byte) (s : State) : State :=
  { s with blen := un16 (h.getD (s.shl.toNat - 2) 0) (h.getD (s.shl.toNat - 1) 0), phase := .waitBody }

/-- The body step's work on its bytes (spec/42_response_decoder.md R175 to R177). -/
def onBody (body : List Byte) (s : State) : State :=
  if s.blen.toNat > s.params.maxBody then s.complete .capacity .bodyLimit 0
  else if s.blen.toNat < 2 then s.complete .malformedFrame .shortBody 0
  else
    let st := un16 (body.getD 0 0) (body.getD 1 0)
    if st ≠ 0 then s.complete .remoteStatusError .none st
    else s.finish ((body.drop 2).map .byte)

/-- The block's own step, or none when it has no enabled one: a continuation of `RD.RECV` whose pull is enabled
(spec/42_response_decoder.md R172 to R175, R180). -/
def recvStep (s : State) : Option State :=
  match s.phase with
  | .idle => none
  | .waitStart => pullThen (rxReadExact 1 s) onStart
  | .waitSubhdr => pullThen (rxReadExact s.shl.toNat s) onSubhdr
  | .waitBody => pullThen (rxReadExact s.blen.toNat s) onBody

/-- How one `RD.RECV` ends (spec/42_response_decoder.md R179). -/
inductive RecvEnd where
  | error (kind : ErrKind) (sub : SubCause) (code : Word)
  | ok (payload : List Byte)
  /-- The stream is open and holds no whole frame: no completion yet. -/
  | pending
deriving DecidableEq, Repr

/-- `io(t)` (spec/42_response_decoder.md R179). -/
def recvIo : RxTerm → RecvEnd
  | .eof => .error .transportIo .eof 0
  | .ioError => .error .transportIo .ioError 0
  | .stillOpen => .pending

/-- `recv(bs, t)`: the whole operation as one function of the stream (spec/42_response_decoder.md R179). -/
def recvAll (maxBody : Nat) (bs : List Byte) (t : RxTerm) : RecvEnd :=
  match bs with
  | [] => recvIo t
  | b :: _ =>
    match discLength b with
    | none => .error .malformedFrame .invalidStart 0
    | some shl =>
      if bs.length < 1 + shl then recvIo t
      else
        let l := (un16 (bs.getD (shl - 1) 0) (bs.getD shl 0)).toNat
        if bs.length < 1 + shl + l then recvIo t
        else if l > maxBody then .error .capacity .bodyLimit 0
        else if l < 2 then .error .malformedFrame .shortBody 0
        else
          let st := un16 (bs.getD (shl + 1) 0) (bs.getD (shl + 2) 0)
          if st ≠ 0 then .error .remoteStatusError .none st
          else .ok ((bs.take (1 + shl + l)).drop (shl + 3))

/-- The bytes one `RD.RECV` removes from the stream, where it completes (spec/42_response_decoder.md R178). -/
def recvRemoved (bs : List Byte) : Nat :=
  match bs with
  | [] => 0
  | b :: _ =>
    match discLength b with
    | none => 1
    | some shl =>
      if bs.length < 1 + shl then bs.length
      else min bs.length (1 + shl + (un16 (bs.getD (shl - 1) 0) (bs.getD shl 0)).toNat)

/-- Up to `n` continuation steps, as long as one is enabled. -/
def recvSteps : Nat → State → State
  | 0, s => s
  | n + 1, s =>
    match recvStep s with
    | some t => recvSteps n t
    | none => s

end Sys2Proof.Machine
end

