-- ==== Sys2Proof/Machine/WireFrames.lean ====
section
/-! DEFINITION. The five wire-format rows: one frame crossing the boundary of the block. A request frame is handed
by the host to the transport's `writeAll`, in which "The block takes no part" (spec/46_host_sequences.md R260);
a response frame is appended by the transport to `RX.bytes` (spec/10_state.md R33). What the block does with the
bytes is `RD.RECV`'s (log 13). -/

namespace Sys2Proof.Machine

/-- The host hands a frame to `writeAll` (spec/46_host_sequences.md R260; log 14). -/
def State.send (s : State) (bytes : List Byte) : State := { s with tx := s.tx ++ bytes }

/-- The transport appends bytes to the inbound stream (spec/10_state.md R33). -/
def State.receive (s : State) (bytes : List Byte) : State := { s with rxBytes := s.rxBytes ++ bytes }

/-- A response frame arrives: only on an open stream (spec/10_state.md R33). -/
def arrive (bytes : List Byte) (s : State) : Out :=
  if s.rxTerm = .stillOpen then .next (s.receive bytes) else .refused .streamClosed

/-- `REQ.READ` (spec/30_encoding.md R95 to R97, spec/46_host_sequences.md R260). -/
def execReqRead (kind : DevKind) (addr : Word) (code : Byte) (count : Word) (s : State) : Out :=
  .next (s.send (encodeRequest Config.cmdRead (kindSub kind) (encodeDevice addr code count)))

/-- `REQ.WRITE` (spec/30_encoding.md R95 to R97, spec/46_host_sequences.md R260). A payload the length field cannot
count makes no frame (log 19). -/
def execReqWrite (kind : DevKind) (addr : Word) (code : Byte) (count : Word) (payload : List Byte) (s : State) : Out :=
  if payloadFits payload then
    .next (s.send (encodeRequest Config.cmdWrite (kindSub kind) (encodeDevice addr code count ++ payload)))
  else .fault .frameUndefined

/-- `REQ.SELFTEST` (spec/30_encoding.md R98, spec/46_host_sequences.md R260). -/
def execReqSelftest (sub : Word) (data : List Byte) (s : State) : Out :=
  if selftestFits data then .next (s.send (encodeRequest Config.cmdSelftest sub data))
  else .fault .frameUndefined

/-- `RESP.D0` (spec/30_encoding.md R100 to R103, spec/10_state.md R33). -/
def execRespD0 (routing body : List Byte) (s : State) : Out :=
  if routingFits 8 routing && bodyFits body then arrive (encodeResponse Config.discNoSerial routing body) s
  else .refused .illFormedFrame

/-- `RESP.D4` (spec/30_encoding.md R100 to R103, spec/10_state.md R33). -/
def execRespD4 (routing body : List Byte) (s : State) : Out :=
  if routingFits 12 routing && bodyFits body then arrive (encodeResponse Config.discSerial routing body) s
  else .refused .illFormedFrame

end Sys2Proof.Machine
end

