-- ==== Sys2Proof/Machine/Dispatch.lean ====
section
/-! DEFINITION. One arm per instruction. -/

namespace Sys2Proof.Machine

def exec (i : Instr) (s : State) : Host.Outcome State Fault Refusal :=
  match i with
  | .dtKind f => Sys2Proof.Machine.execDtKind f s
  | .dtCode f => Sys2Proof.Machine.execDtCode f s
  | .dtSubcmd f => Sys2Proof.Machine.execDtSubcmd f s
  | .feRead f => Sys2Proof.Machine.execFeRead f s
  | .feWrite f => Sys2Proof.Machine.execFeWrite f s
  | .feSelftest f => Sys2Proof.Machine.execFeSelftest f s
  | .rdRecv f => Sys2Proof.Machine.execRdRecv f s
  | .bcEnc f => Sys2Proof.Machine.execBcEnc f s
  | .bcDec f => Sys2Proof.Machine.execBcDec f s
  | .wcEnc f => Sys2Proof.Machine.execWcEnc f s
  | .wcDec f => Sys2Proof.Machine.execWcDec f s
  | .wcSenc f => Sys2Proof.Machine.execWcSenc f s
  | .wcSdec f => Sys2Proof.Machine.execWcSdec f s
  | .rmLayout f => Sys2Proof.Machine.execRmLayout f s
  | .rmSizeof f => Sys2Proof.Machine.execRmSizeof f s
  | .rmDec f => Sys2Proof.Machine.execRmDec f s
  | .rmEnc f => Sys2Proof.Machine.execRmEnc f s
  | .reqRead kind addr code count => Sys2Proof.Machine.execReqRead kind addr code count s
  | .reqWrite kind addr code count payload => Sys2Proof.Machine.execReqWrite kind addr code count payload s
  | .reqSelftest sub data => Sys2Proof.Machine.execReqSelftest sub data s
  | .respD0 routing body => Sys2Proof.Machine.execRespD0 routing body s
  | .respD4 routing body => Sys2Proof.Machine.execRespD4 routing body s

end Sys2Proof.Machine
end

