-- ==== Sys2Proof/Machine/Agents.lean ====
section
/-! DEFINITION. One move of each agent (spec/00_scope.md R7). An agent with nothing it can do makes a move that
changes nothing: no step of it is enabled (spec/20_memory.md R70, spec/42_response_decoder.md R180; logs 1, 11
and 18). -/

namespace Sys2Proof.Machine

/-- The host's next action is one it can take now. An issue needs `BUSY = 0` (spec/20_memory.md R70). -/
def State.hostReady (s : State) : Bool :=
  match s.hostQ with
  | [] => false
  | .issue _ _ :: _ => !s.busy
  | .send _ :: _ => true
  | .reset :: _ => true
  | .connect :: _ => true
  | .disconnect :: _ => true

/-- The transport's next action is one it can take now: only while the stream is open (spec/10_state.md R33). -/
def State.transportReady (s : State) : Bool :=
  match s.wireQ with
  | [] => false
  | _ :: _ => s.rxTerm == .stillOpen

/-- The block has an enabled step (spec/42_response_decoder.md R172, R180). -/
def State.blockReady (s : State) : Bool := (recvStep s).isSome

/-- The command port takes a command word with its `DIN`: an operation runs, an undefined `OP` completes with
IllegalOp (spec/30_encoding.md R93, R94). The host keeps no step while `BUSY = 1` (spec/20_memory.md R70). DESIGN CHOICE:
an undefined `OP` completes with IllegalOp also when the `DIN` presented with it is longer than `MAX_ITEMS` (spec/60 R287
against spec/30 R94; log 30). -/
def issueStep (cw : CmdWord) (din : List Item) (rest : List HostAct) (s : State) : Out :=
  if s.busy then .next s
  else
    match decodeCommand cw with
    | .ok i => exec i { s with hostQ := rest, din := din }
    | .error _ => illegalOp { s with hostQ := rest }

/-- The host hands bytes to `writeAll`: a whole request frame is that instruction, other bytes go out as they are
(spec/46_host_sequences.md R260). -/
def sendStep (bytes : List Byte) (s : State) : Out :=
  match decodeOutbound bytes with
  | .ok i => exec i s
  | .error _ => .next (s.send bytes)

/-- A fresh inbound stream (spec/10_state.md R43, spec/46_host_sequences.md R261). -/
def State.connected (s : State) : State := { s with rxBytes := [], rxTerm := .stillOpen }

/-- The inbound stream ends: no byte is added any more, and a pull that needs more than is left sees `eof`
(spec/46_host_sequences.md R261; log 22). -/
def State.disconnected (s : State) : State :=
  { s with rxTerm := if s.rxTerm = .stillOpen then .eof else s.rxTerm }

/-- One move of the host. -/
def hostStep (s : State) : Out :=
  match s.hostQ with
  | [] => .next s
  | .issue cw din :: rest => issueStep cw din rest s
  | .send bytes :: rest => sendStep bytes { s with hostQ := rest }
  | .reset :: rest => .next { s with hostQ := rest }.resetBlock
  | .connect :: rest => .next { s with hostQ := rest }.connected
  | .disconnect :: rest => .next { s with hostQ := rest }.disconnected

/-- One move of the block (spec/42_response_decoder.md R173 to R175, R180). -/
def blockStep (s : State) : Out :=
  match recvStep s with
  | some t => .next t
  | none => .next s

/-- The transport's bytes reach `RX`: a whole response frame is that instruction, other bytes are appended as they
are (spec/10_state.md R33). -/
def appendStep (bytes : List Byte) (s : State) : Out :=
  match decodeInbound bytes with
  | .ok i => exec i s
  | .error _ => .next (s.receive bytes)

/-- `RX.term` after the transport closes the stream (spec/10_state.md R33). -/
def closedTerm : CloseKind → RxTerm
  | .eof => .eof
  | .ioError => .ioError

/-- One move of the transport (spec/10_state.md R33). -/
def transportStep (s : State) : Out :=
  if s.rxTerm = .stillOpen then
    match s.wireQ with
    | [] => .next s
    | .append bytes :: rest => appendStep bytes { s with wireQ := rest }
    | .close how :: rest => .next { s with wireQ := rest, rxTerm := closedTerm how }
  else .next s

/-- One move of an agent. -/
def agentStep (a : Agent) (s : State) : Out :=
  match a with
  | .host => hostStep s
  | .block => blockStep s
  | .transport => transportStep s

/-- Who moves when the schedule names nobody: the block, else the transport, else the host, whichever first has a
step; nobody when none has (spec/70_reset_and_hazards.md R322; logs 1 and 18). -/
def State.nextAgent (s : State) : Option Agent :=
  if s.blockReady then some .block
  else if s.transportReady then some .transport
  else if s.hostReady then some .host
  else none

/-- One step: the agent the schedule names moves, or else the first that can. -/
def oneStep (s : State) : Out :=
  match s.sched with
  | a :: rest => agentStep a { s with sched := rest }
  | [] =>
    match s.nextAgent with
    | some a => agentStep a s
    | none => .next s

/-- A code placed as the very next thing that happens: on the host's or the transport's list, with that agent
scheduled to move. A command word is issued with the `DIN` the state holds (log 16). -/
def State.placeNext (s : State) : Code → State
  | .command cw => { s with hostQ := .issue cw s.din :: s.hostQ, sched := .host :: s.sched }
  | .outbound bytes => { s with hostQ := .send bytes :: s.hostQ, sched := .host :: s.sched }
  | .inbound bytes => { s with wireQ := .append bytes :: s.wireQ, sched := .transport :: s.sched }

end Sys2Proof.Machine
end

