-- ==== Sys2Proof/Machine/Step.lean ====
section
/-! DEFINITION. The step, and how the host of this package places an instruction to be run next. -/

namespace Sys2Proof.Machine

/-- One step of the machine: one move of one agent (spec/00_scope.md R6, R7). -/
def step (s : State) : Host.Outcome State Fault Refusal := oneStep s

/-- The state in which the very next step runs the instruction of the opcode-table word `w` (log 16). -/
def State.withFetchWord (s : State) (nbits w : Nat) : State := s.placeNext (tableCode nbits w)

end Sys2Proof.Machine
end

