-- ==== Sys2Proof/Machine/HostPort.lean ====
section
/-! DEFINITION. What the host reads: the elements of spec/10_state.md R44. A read changes nothing, so it is a
function of the state and no step. -/

namespace Sys2Proof.Machine

/-- One entry of the layout table as the host reads it (spec/10_state.md R36). -/
structure EntryBits where
  kind : Byte
  clen : Word
  w : Word
deriving DecidableEq, Repr

/-- `LT.F[i]`: the written entry, or free bits where nothing has written one (spec/10_state.md R45; log 8). -/
def State.readEntry (s : State) (i : Nat) : EntryBits :=
  match s.ltF[i]? with
  | some e => ⟨codeOfKind e.kind, e.clen, e.w⟩
  | none =>
    let v := Config.freeEntry s.draws i
    ⟨v.extractLsb' 0 8, v.extractLsb' 8 16, v.extractLsb' 24 16⟩

/-- The command word the operand registers hold (spec/10_state.md R44 no. 0, spec/30_encoding.md R91). -/
def State.readCommand (s : State) : CmdWord := encodeCw s.op ⟨s.dev, s.addr, s.count, s.len⟩

/-- The number of a phase (spec/10_state.md R34). -/
def phaseCode : RdPhase → BitVec 2
  | .idle => 0
  | .waitStart => 1
  | .waitSubhdr => 2
  | .waitBody => 3

/-- A host-visible element, numbered 0 to 9 in the order of spec/10_state.md R44. -/
inductive HostElem where
  | command
  | status
  | res
  | olen
  | busy
  | decoder
  | layout
  | entry (i : Nat)
  | din
  | dout
deriving DecidableEq, Repr

/-- What a host read yields. -/
inductive HostView where
  | command (cw : CmdWord)
  | status (v : BitVec 24)
  | res (v : Word)
  | olen (v : BitVec 32)
  | busy (v : Bool)
  | decoder (phase : BitVec 2) (shl : BitVec 4) (blen : Word)
  | layout (valid : Bool) (n : Nat) (size : Word)
  | entry (e : EntryBits)
  | items (xs : List Item)
deriving DecidableEq, Repr

/-- The number of an element (spec/10_state.md R44). -/
def elemNumber : HostElem → Nat
  | .command => 0
  | .status => 1
  | .res => 2
  | .olen => 3
  | .busy => 4
  | .decoder => 5
  | .layout => 6
  | .entry _ => 7
  | .din => 8
  | .dout => 9

/-- A host read; none for `DIN`, which is write only (spec/10_state.md R44). `RX` is no element: the host cannot
read it (R43). -/
def State.hostRead (s : State) : HostElem → Option HostView
  | .command => some (.command s.readCommand)
  | .status => some (.status s.status)
  | .res => some (.res s.res)
  | .olen => some (.olen s.olen)
  | .busy => some (.busy s.busy)
  | .decoder => some (.decoder (phaseCode s.phase) s.shl s.blen)
  | .layout => some (.layout s.ltValid s.ltN s.ltSize)
  | .entry i => some (.entry (s.readEntry i))
  | .din => none
  | .dout => some (.items s.dout)

end Sys2Proof.Machine
end

