-- ==== Sys2Proof/Machine/HostSequences.lean ====
section
/-! DEFINITION. The ten pseudo-operations of spec/46_host_sequences.md as host sequences over the block's
operations. They are host software, no behaviour of the block (spec/00_scope.md R5): no step calls them. What the
transport does after a frame is sent is an argument, as the spec leaves it to the environment (log 23). -/

namespace Sys2Proof.Machine

/-- The host's connection state (spec/46_host_sequences.md R261). -/
inductive Conn where
  | disconnected
  | connecting
  | connected
deriving DecidableEq, Repr

/-- How an attempt to connect ends (spec/46_host_sequences.md R261). -/
inductive ConnectEnd where
  | ok
  | timeout
  | refused
deriving DecidableEq, Repr

/-- Why a host sequence stops (spec/60_exceptions.md R281, spec/46_host_sequences.md R271). -/
inductive HostError where
  /-- ConnectionTimeout (R281 code 1). -/
  | connectionTimeout
  /-- A refused connection, which has no code (spec/90_conflicts.md C10). -/
  | connectionRefused
  /-- `connect` from a state other than Disconnected, where R261 says only that it is not valid. DESIGN CHOICE (log 31). -/
  | notDisconnected
  /-- NotConnected (R281 code 2). -/
  | notConnected
  /-- TransportIo of `writeAll` (R260). -/
  | writeFailed
  /-- DeviceKindMismatch (R281 code 6). -/
  | deviceKindMismatch
  /-- An error completion of the block, with its `STATUS`. -/
  | completion (status : BitVec 24)
  /-- No result: `RD.RECV` has not completed, the stream is open and holds no whole response (spec/42 R180; log 32). -/
  | waiting
  /-- No result: the block offers no such step (spec/20 R70; logs 23 and 32). -/
  | noStep
deriving DecidableEq, Repr

/-- The error is one the sequence was given, by the transport, the block or its own checks; the two others say that it has
no result at all (log 32). -/
def HostError.raised : HostError → Bool
  | .connectionTimeout => true
  | .connectionRefused => true
  | .notDisconnected => true
  | .notConnected => true
  | .writeFailed => true
  | .deviceKindMismatch => true
  | .completion _ => true
  | .waiting => false
  | .noStep => false

/-- The result of a host sequence: the machine it leaves, and a value or the error it stopped with. -/
abbrev HostResult (α : Type) := State × Except HostError α

/-- The next step of a sequence, taken only when the one before succeeded (spec/46_host_sequences.md R271). -/
def andThen {α β : Type} (r : HostResult α) (k : α → State → HostResult β) : HostResult β :=
  match r with
  | (s, .ok a) => k a s
  | (s, .error e) => (s, .error e)

/-- `connect` (spec/46_host_sequences.md R261). DESIGN CHOICE: from Connecting and from Connected, where R261 says only
that it is not valid, it answers an error of its own and changes neither the connection nor `RX` (log 31). -/
def hostConnect (c : Conn) (how : ConnectEnd) (s : State) : Conn × HostResult Unit :=
  match c with
  | .disconnected =>
    match how with
    | .ok => (.connected, s.connected, .ok ())
    | .timeout => (.disconnected, s, .error .connectionTimeout)
    | .refused => (.disconnected, s, .error .connectionRefused)
  | .connecting => (.connecting, s, .error .notDisconnected)
  | .connected => (.connected, s, .error .notDisconnected)

/-- `disconnect`: idempotent, always Disconnected (spec/46_host_sequences.md R261). -/
def hostDisconnect (s : State) : Conn × State := (.disconnected, s.disconnected)

/-- What a completed operation answers to the host: its `STATUS` says whether it failed. -/
def completed (s : State) : HostResult Unit :=
  if s.err = 0 then (s, .ok ()) else (s, .error (.completion s.status))

/-- Issues a block operation that completes at once. -/
def hostIssue (i : Instr) (din : List Item) (s : State) : HostResult Unit :=
  match exec i { s with din := din } with
  | .next t => completed t
  | .fault _ => (s, .error .noStep)
  | .refused _ => (s, .error .noStep)

/-- What the transport does with a frame it is handed: whether `writeAll` succeeds, and then what arrives. -/
structure Exchange where
  writeOk : Bool
  reply : List WireAct
deriving DecidableEq, Repr

/-- `send(frame)` (spec/46_host_sequences.md R260). -/
def hostSend (x : Exchange) (frame : List Byte) (s : State) : HostResult Unit :=
  if x.writeOk then (s.send frame, .ok ()) else (s, .error .writeFailed)

/-- The transport's actions, one after the other. -/
def deliver : List WireAct → State → State
  | [], s => s
  | .append bytes :: rest, s => deliver rest (if s.rxTerm = .stillOpen then s.receive bytes else s)
  | .close how :: rest, s =>
    deliver rest (if s.rxTerm = .stillOpen then { s with rxTerm := closedTerm how } else s)

/-- The bytes in `DOUT`. -/
def doutBytes (s : State) : List Byte := (itemsAs Item.byte? s.dout).getD []

/-- A command's operand fields, those not named being 0. -/
def fields (dev : Byte) (addr count len : Word) : CwFields := ⟨dev, addr, count, len⟩

/-- `RD.RECV` run until it completes: the payload (spec/42_response_decoder.md R172 to R175). -/
def hostReceive (x : Exchange) (s : State) : HostResult (List Byte) :=
  match exec (.rdRecv (fields 0 0 0 0)) s with
  | .next t =>
    let u := recvSteps 3 (deliver x.reply t)
    if u.busy then (u, .error .waiting) else andThen (completed u) fun _ v => (v, .ok (doutBytes v))
  | .fault _ => (s, .error .noStep)
  | .refused _ => (s, .error .noStep)

/-- Sends the frame in `DOUT` and receives the one response (spec/46_host_sequences.md R272,
spec/70_reset_and_hazards.md R330). -/
def exchange (x : Exchange) (s : State) : HostResult (List Byte) :=
  andThen (hostSend x (doutBytes s) s) fun _ t => hostReceive x t

/-- `guard(d, want)` (spec/46_host_sequences.md R262). -/
def guard (c : Conn) (d : Byte) (want : DevKind) (s : State) : HostResult Unit :=
  if c = .connected then
    andThen (hostIssue (.dtKind (fields d 0 0 0)) [] s) fun _ t =>
      if t.res = kindNumber want then (t, .ok ()) else (t, .error .deviceKindMismatch)
  else (s, .error .notConnected)

/-- `readBit` (spec/46_host_sequences.md R263). -/
def readBit (c : Conn) (x : Exchange) (d : Byte) (addr count : Word) (s : State) : HostResult (List Bool) :=
  andThen (guard c d .bit s) fun _ s =>
  andThen (hostIssue (.feRead (fields d addr count 0)) [] s) fun _ s =>
  andThen (exchange x s) fun p s =>
  andThen (hostIssue (.bcDec (fields 0 0 count 0)) (p.map .byte) s) fun _ s =>
    (s, .ok ((itemsAs Item.bool? s.dout).getD []))

/-- `readWord` (spec/46_host_sequences.md R264). -/
def readWord (c : Conn) (x : Exchange) (d : Byte) (addr count : Word) (s : State) : HostResult (List Word) :=
  andThen (guard c d .word s) fun _ s =>
  andThen (hostIssue (.feRead (fields d addr count 0)) [] s) fun _ s =>
  andThen (exchange x s) fun p s =>
  andThen (hostIssue (.wcDec (fields 0 0 0 0)) (p.map .byte) s) fun _ s =>
    (s, .ok ((itemsAs Item.word? s.dout).getD []))

/-- `readString` (spec/46_host_sequences.md R268). -/
def readString (c : Conn) (x : Exchange) (d : Byte) (addr len : Word) (s : State) : HostResult (List Byte) :=
  andThen (guard c d .word s) fun _ s =>
  andThen (hostIssue (.feRead (fields d addr (BitVec.ofNat 16 (strWords len.toNat)) 0)) [] s) fun _ s =>
  andThen (exchange x s) fun p s =>
  andThen (hostIssue (.wcSdec (fields 0 0 0 len)) (p.map .byte) s) fun _ s =>
    (s, .ok ((itemsAs Item.char? s.dout).getD []))

/-- `readStruct` of a layout given as descriptors, loaded before any I/O (spec/46_host_sequences.md R269). -/
def readStruct (c : Conn) (x : Exchange) (layout : List Descriptor) (d : Byte) (addr : Word) (s : State) :
    HostResult (List FieldVal) :=
  andThen (hostIssue (.rmLayout (fields 0 0 0 0)) (layout.map .desc) s) fun _ s =>
  andThen (guard c d .word s) fun _ s =>
  andThen (hostIssue (.rmSizeof (fields 0 0 0 0)) [] s) fun _ s =>
  andThen (hostIssue (.feRead (fields d addr s.res 0)) [] s) fun _ s =>
  andThen (exchange x s) fun p s =>
  andThen (hostIssue (.wcDec (fields 0 0 0 0)) (p.map .byte) s) fun _ s =>
  andThen (hostIssue (.rmDec (fields 0 0 0 0)) s.dout s) fun _ s =>
    (s, .ok ((itemsAs Item.val? s.dout).getD []))

/-- The common part of the writes: the frame around the payload in `DOUT`, one exchange
(spec/46_host_sequences.md R265 to R267). DESIGN CHOICE: a count that 16 bits do
not hold cannot be issued (spec/41 R157), so the sequence ends there without a result (log 23). -/
def writePayload (x : Exchange) (d : Byte) (addr : Word) (count : Nat) (s : State) : HostResult Unit :=
  if count ≤ 65535 then
    andThen (hostIssue (.feWrite (fields d addr (BitVec.ofNat 16 count) 0)) s.dout s) fun _ s =>
    andThen (exchange x s) fun _ s => (s, .ok ())
  else (s, .error .noStep)

/-- `writeBit`: the count is the number of booleans (spec/46_host_sequences.md R265). -/
def writeBit (c : Conn) (x : Exchange) (d : Byte) (addr : Word) (v : List Bool) (s : State) : HostResult Unit :=
  andThen (guard c d .bit s) fun _ s =>
  andThen (hostIssue (.bcEnc (fields 0 0 0 0)) (v.map .bool) s) fun _ s =>
    writePayload x d addr v.length s

/-- `writeWord` (spec/46_host_sequences.md R266). -/
def writeWord (c : Conn) (x : Exchange) (d : Byte) (addr : Word) (v : List Word) (s : State) : HostResult Unit :=
  andThen (guard c d .word s) fun _ s =>
  andThen (hostIssue (.wcEnc (fields 0 0 0 0)) (v.map .word) s) fun _ s =>
    writePayload x d addr v.length s

/-- `writeString`: the count is half the payload's length (spec/46_host_sequences.md R267). -/
def writeString (c : Conn) (x : Exchange) (d : Byte) (addr : Word) (v : List Byte) (s : State) : HostResult Unit :=
  andThen (guard c d .word s) fun _ s =>
  andThen (hostIssue (.wcSenc (fields 0 0 0 0)) (v.map .char) s) fun _ s =>
    writePayload x d addr (s.dout.length / 2) s

/-- The result of an operation whose contract is never to throw: an error that was raised becomes `fallback`; a sequence
without a result stays one (spec/46_host_sequences.md R270, R271; log 32). -/
def swallow {α : Type} (fallback : α) (r : HostResult α) : HostResult α :=
  match r with
  | (s, .ok a) => (s, .ok a)
  | (s, .error e) => (s, if e.raised then .ok fallback else .error e)

/-- `selfTest`: NotConnected, a failing `writeAll` and every error completion are reported as `false`; a received payload
is compared with `ST_EXPECT` by the host. While `RD.RECV` is pending there is no result (spec/46_host_sequences.md R270,
spec/42_response_decoder.md R180; log 32). -/
def selfTest (c : Conn) (x : Exchange) (s : State) : HostResult Bool :=
  swallow false (
    if c = .connected then
      andThen (hostIssue (.feSelftest (fields 0 0 0 0)) [] s) fun _ s =>
      andThen (exchange x s) fun p s => (s, .ok (p == s.params.stExpect))
    else (s, .error .notConnected))

end Sys2Proof.Machine
end

