-- ==== Sys2Proof/Safety.lean ====
section
/-! DEFINITION. What claims call a sound state: the invariants the spec states of the state elements, one named
predicate each, and their conjunction. -/

namespace Sys2Proof.Machine

/-- `RD.PHASE ≠ IDLE` exactly while an operation is in progress, and that operation is `RD.RECV`
(spec/10_state.md R23, R35). -/
def State.phaseSound (s : State) : Bool :=
  (s.busy == (s.phase != .idle)) && (s.phase == .idle || s.op == 0x30)

/-- `RD.SHL` is 8 or 12 from the start step on (spec/10_state.md R34). -/
def State.shlSound (s : State) : Bool :=
  match s.phase with
  | .idle => true
  | .waitStart => true
  | .waitSubhdr => s.shl == 8 || s.shl == 12
  | .waitBody => s.shl == 8 || s.shl == 12

/-- `OLEN = |DOUT|` (spec/10_state.md R27), as far as 32 bits count (log 9). -/
def State.olenSound (s : State) : Bool := s.olen == olenOf s.dout.length

/-- `STATUS` is legal, and after an error no data is observable (spec/10_state.md R25, R32). -/
def State.statusSound (s : State) : Bool := legalStatus s.status && (s.status == 0 || s.dout == [])

/-- An entry that `RM.LAYOUT` could have written (spec/10_state.md R36, spec/45_record_marshaler.md R231). -/
def entrySound (e : LtEntry) : Bool :=
  e.w == BitVec.ofNat 16 (fieldWidth e.kind e.clen) && (e.clen == 0) == (e.kind != .string)

/-- The layout table: a valid table lists exactly `LT.N` sound entries of `LT.SIZE` words in all; without a layout
both numbers are 0 (spec/10_state.md R36, spec/45_record_marshaler.md R231, R232). -/
def State.layoutSound (s : State) : Bool :=
  if s.ltValid then
    s.ltF.length == s.ltN && decide (s.ltN ≤ s.params.maxFields) && s.ltF.all entrySound &&
      decide (s.ltSize.toNat = layoutWords s.ltF)
  else s.ltN == 0 && s.ltSize == 0

/-- `DOUT` is within the capacity of the port (spec/60_exceptions.md R287). -/
def State.doutSound (s : State) : Bool := !s.overCapacity s.dout.length

/-- The invariant of the machine: every predicate above, and parameters the spec allows. -/
def State.sound (s : State) : Bool :=
  s.params.ok && s.phaseSound && s.shlSound && s.olenSound && s.statusSound && s.layoutSound && s.doutSound

/-- A run is safe when no step of it is a fault. -/
def Safe (n : Nat) (s : State) : Prop := ∀ r, Host.Core.run ⟨State, Fault, Refusal, step, State.reset⟩ n s ≠ .fault r

end Sys2Proof.Machine
end

