-- ==== Sys2Proof/Certificates/Slice0/Obligations.lean ====
section
/-! DEFINITION. The statements for the provers. The helpers of `Claims` write out, in full and with the numeric
values of the spec's tables, what a completed operation leaves; a field they do not name is unchanged, so every
statement of a next state is also the frame of its instruction. -/

namespace Sys2Proof.Claims

open Machine

/-- The command port takes an operation: none is in progress, and `DIN` is one the port can carry. -/
abbrev Ready (s : State) : Prop := s.busy = false ∧ s.overCapacity s.din.length = false

/-- `DOUT` and `OLEN` can hold that many items. -/
abbrev Fits (s : State) (n : Nat) : Prop := s.overCapacity n = false ∧ n < 2 ^ 32

/-- The state after operation `op` with operand fields `f` completes with success and `DOUT = out`. -/
def succeeded (op : Byte) (f : CwFields) (out : List Item) (s : State) : State :=
  { s with op := op, dev := f.dev, addr := f.addr, count := f.count, len := f.len, busy := false, status := 0,
           olen := BitVec.ofNat 32 out.length, dout := out, phase := .idle }

/-- The same for an operation whose result is `RES`. -/
def scalar (op : Byte) (f : CwFields) (v : Word) (s : State) : State := { succeeded op f [] s with res := v }

/-- The state after operation `op` completes with an error whose `STATUS` is `st`. -/
def failed (op : Byte) (f : CwFields) (st : BitVec 24) (s : State) : State :=
  { s with op := op, dev := f.dev, addr := f.addr, count := f.count, len := f.len, busy := false, status := st,
           olen := 0, dout := [], phase := .idle }

/-- The low and the high byte of a word. -/
def lo (w : Word) : Byte := w.extractLsb' 0 8

/-- The high byte of a word. -/
def hi (w : Word) : Byte := w.extractLsb' 8 8

/-- Bytes as items. -/
abbrev bytes (bs : List Byte) : List Item := bs.map .byte

/-- The table entry that a descriptor with kind code `k` and length `c` stands for (spec/45 R230, R231). -/
def entryFor (d : Descriptor) : Option LtEntry :=
  let c := d.extractLsb' 8 16
  match (d.extractLsb' 0 8).toNat with
  | 1 => some ⟨.bool, 0, 1⟩
  | 2 => some ⟨.int16, 0, 1⟩
  | 3 => some ⟨.uint16, 0, 1⟩
  | 4 => some ⟨.int32, 0, 2⟩
  | 5 => some ⟨.uint32, 0, 2⟩
  | 6 => if c = 0 then none else some ⟨.string, c, BitVec.ofNat 16 (c.toNat / 2 + 1)⟩
  | _ => none

/-- The words that a list of entries takes. -/
def wordsOf (es : List LtEntry) : Nat := (es.map fun e => e.w.toNat).sum

/-- The state with the layout `es` in the table. -/
def withTable (es : List LtEntry) (s : State) : State :=
  { s with ltValid := true, ltN := es.length, ltSize := BitVec.ofNat 16 (wordsOf es), ltF := es, draws := s.draws + 1 }

/-- The state without a layout. -/
def withoutTable (s : State) : State :=
  { s with ltValid := false, ltN := 0, ltSize := 0, ltF := [], draws := s.draws + 1 }

/-- A record word sequence with each Bool word made 0 or 1 and each String's padding made NUL (spec/45 R243). -/
def normalised : List LtEntry → List Word → List Word
  | [], _ => []
  | e :: es, ws =>
    let s := ws.take e.w.toNat
    (match e.kind with
     | .bool => [if s.getD 0 0 = 0 then 0 else 1]
     | .string => packChars ((unpackChars s).take e.clen.toNat) e.w.toNat
     | .int16 => s
     | .uint16 => s
     | .int32 => s
     | .uint32 => s) ++ normalised es (ws.drop e.w.toNat)

/-- The seventeen `OP` codes (spec/30 R93). -/
def opCodes : List Nat :=
  [0x10, 0x11, 0x12, 0x20, 0x21, 0x22, 0x30, 0x40, 0x41, 0x50, 0x51, 0x52, 0x53, 0x60, 0x61, 0x62, 0x63]

/-- The operation of each `OP` code, in the order of `opCodes`. -/
def operations : List (CwFields → Instr) :=
  [.dtKind, .dtCode, .dtSubcmd, .feRead, .feWrite, .feSelftest, .rdRecv, .bcEnc, .bcDec, .wcEnc, .wcDec, .wcSenc,
   .wcSdec, .rmLayout, .rmSizeof, .rmDec, .rmEnc]

/-- The host issues `cw` with `din` now, with what else it will do after that. -/
abbrev Issues (s : State) (cw : CmdWord) (din : List Item) (rest : List HostAct) (later : List Agent) : Prop :=
  s.hostQ = .issue cw din :: rest ∧ s.sched = .host :: later

/-- A state without its operand registers. -/
def eraseOperands (s : State) : State := { s with dev := 0, addr := 0, count := 0, len := 0 }

/-- An outcome with a view of its next state. -/
def view (g : State → State) : Out → Out
  | .next t => .next (g t)
  | .fault r => .fault r
  | .refused r => .refused r

/-- A host sequence ended with that error, nothing sent and the inbound stream as it was. -/
def StopsBeforeIo {α : Type} (r : HostResult α) (e : HostError) (s : State) : Prop :=
  r.2 = .error e ∧ r.1.tx = s.tx ∧ r.1.rxBytes = s.rxBytes ∧ r.1.rxTerm = s.rxTerm

/-- Two field lists agree on what an operation reads (the column "reads fields" of spec/30 R93). -/
def agreeOn (dev addr count len : Bool) (f g : CwFields) : Prop :=
  (dev = true → f.dev = g.dev) ∧ (addr = true → f.addr = g.addr) ∧ (count = true → f.count = g.count) ∧
    (len = true → f.len = g.len)

end Sys2Proof.Claims

open Sys2Proof Sys2Proof.Machine Sys2Proof.Claims

/-! ### Device table -/

/-- spec/40 R142: `DT.KIND` answers 1 for a Bit device and 0 for a Word device, and UnknownDevice beyond the table. -/
def Obligations.DtKindReportsTheKind : Prop :=
  ∀ (f : CwFields) (s : State), Ready s →
    (∀ row, s.params.devtab[f.dev.toNat]? = some row →
      exec (.dtKind f) s = .next (scalar 0x10 f (if row.kind = .bit then 1 else 0) s)) ∧
    (s.params.devtab.length ≤ f.dev.toNat → exec (.dtKind f) s = .next (failed 0x10 f 0x00000a s))

/-- spec/40 R143: `DT.CODE` answers the wire code with upper byte 0. -/
def Obligations.DtCodeReportsTheWireCode : Prop :=
  ∀ (f : CwFields) (s : State), Ready s →
    (∀ row, s.params.devtab[f.dev.toNat]? = some row →
      exec (.dtCode f) s = .next (scalar 0x11 f (row.code.setWidth 16) s)) ∧
    (s.params.devtab.length ≤ f.dev.toNat → exec (.dtCode f) s = .next (failed 0x11 f 0x00000a s))

/-- spec/40 R144: `DT.SUBCMD` answers 0x0001 for a Bit device and 0x0000 for a Word device. -/
def Obligations.DtSubcmdReportsTheSubcommand : Prop :=
  ∀ (f : CwFields) (s : State), Ready s →
    (∀ row, s.params.devtab[f.dev.toNat]? = some row →
      exec (.dtSubcmd f) s = .next (scalar 0x12 f (if row.kind = .bit then 0x0001 else 0x0000) s)) ∧
    (s.params.devtab.length ≤ f.dev.toNat → exec (.dtSubcmd f) s = .next (failed 0x12 f 0x00000a s))

/-! ### Frame encoder -/

/-- spec/41 R151: the 21 bytes of a device-read frame, or the two errors in their order. -/
def Obligations.FeReadBuildsTheReadFrame : Prop :=
  ∀ (f : CwFields) (s : State), Ready s →
    (s.params.devtab.length ≤ f.dev.toNat → exec (.feRead f) s = .next (failed 0x20 f 0x00000a s)) ∧
    (∀ row, s.params.devtab[f.dev.toNat]? = some row →
      (s.params.maxCount < f.count.toNat → exec (.feRead f) s = .next (failed 0x20 f 0x00001d s)) ∧
      (f.count.toNat ≤ s.params.maxCount → Fits s 21 →
        exec (.feRead f) s = .next (succeeded 0x20 f (bytes
          [0x50, 0x00, 0x00, 0xff, 0xff, 0x03, 0x00, 0x0c, 0x00, 0x00, 0x00, 0x01, 0x04,
           (if row.kind = .bit then 0x01 else 0x00), 0x00, lo f.addr, hi f.addr, 0x00, row.code,
           lo f.count, hi f.count]) s)))

/-- spec/41 R153: a device-write frame with its payload, or the three errors in their order. -/
def Obligations.FeWriteBuildsTheWriteFrame : Prop :=
  ∀ (f : CwFields) (s : State) (payload : List Byte), Ready s → s.din = bytes payload →
    s.params.maxPayload ≤ 65523 →
    (s.params.devtab.length ≤ f.dev.toNat → exec (.feWrite f) s = .next (failed 0x21 f 0x00000a s)) ∧
    (∀ row, s.params.devtab[f.dev.toNat]? = some row →
      (s.params.maxCount < f.count.toNat → exec (.feWrite f) s = .next (failed 0x21 f 0x00001d s)) ∧
      (f.count.toNat ≤ s.params.maxCount → s.params.maxPayload < payload.length →
        exec (.feWrite f) s = .next (failed 0x21 f 0x00002d s)) ∧
      (f.count.toNat ≤ s.params.maxCount → payload.length ≤ s.params.maxPayload → Fits s (21 + payload.length) →
        exec (.feWrite f) s = .next (succeeded 0x21 f (bytes
          ([0x50, 0x00, 0x00, 0xff, 0xff, 0x03, 0x00,
            lo (BitVec.ofNat 16 (12 + payload.length)), hi (BitVec.ofNat 16 (12 + payload.length)),
            0x00, 0x00, 0x01, 0x14, (if row.kind = .bit then 0x01 else 0x00), 0x00, lo f.addr, hi f.addr, 0x00,
            row.code, lo f.count, hi f.count] ++ payload)) s)))

/-- spec/41 R156: the self-test frame, for every value of the open parameters `ST_SUB` and `ST_DATA`. -/
def Obligations.FeSelftestBuildsTheSelftestFrame : Prop :=
  ∀ (f : CwFields) (s : State), Ready s → s.params.stData.length ≤ 65529 → Fits s (15 + s.params.stData.length) →
    exec (.feSelftest f) s = .next (succeeded 0x22 f (bytes
      ([0x50, 0x00, 0x00, 0xff, 0xff, 0x03, 0x00,
        lo (BitVec.ofNat 16 (6 + s.params.stData.length)), hi (BitVec.ofNat 16 (6 + s.params.stData.length)),
        0x00, 0x00, 0x17, 0x16, lo s.params.stSub, hi s.params.stSub] ++ s.params.stData)) s)

/-- The frames that the frame encoder delivers are the frames of the wire format (spec/30 R95, spec/41 R150): the
decoder of the outbound side reads each back as its own row of the table. -/
def Obligations.FrameEncoderMeetsTheWireFormat : Prop :=
  ∀ (f : CwFields) (s t : State) (payload : List Byte), s.din = bytes payload → t.status = 0 →
    (exec (.feRead f) s = .next t → ∃ (bs : List Byte) (row : DevRow),
      t.dout = bytes bs ∧ s.params.devtab[f.dev.toNat]? = some row ∧
        decodeOutbound bs = .ok (.reqRead row.kind f.addr row.code f.count)) ∧
    (exec (.feWrite f) s = .next t → ∃ (bs : List Byte) (row : DevRow),
      t.dout = bytes bs ∧ s.params.devtab[f.dev.toNat]? = some row ∧
        decodeOutbound bs = .ok (.reqWrite row.kind f.addr row.code f.count payload)) ∧
    (exec (.feSelftest f) s = .next t → ∃ bs : List Byte,
      t.dout = bytes bs ∧ decodeOutbound bs = .ok (.reqSelftest s.params.stSub s.params.stData))

/-! ### Response decoder -/

/-- spec/42 R171: a pull takes exactly `n` bytes from the front, or ends with the stream and empties it, or is not
enabled and changes nothing. -/
def Obligations.PullTakesExactlyN : Prop :=
  ∀ (n : Nat) (s : State),
    (n ≤ s.rxBytes.length →
      rxReadExact n s = (.bytes (s.rxBytes.take n), { s with rxBytes := s.rxBytes.drop n })) ∧
    (s.rxBytes.length < n →
      (s.rxTerm = .eof → rxReadExact n s = (.eof, { s with rxBytes := [] })) ∧
      (s.rxTerm = .ioError → rxReadExact n s = (.ioError, { s with rxBytes := [] })) ∧
      (s.rxTerm = .stillOpen → rxReadExact n s = (.wait, s))) ∧
    rxReadExact 0 s = (.bytes [], s)

/-- The issue step of `RD.RECV` (spec/42 section 2): the operand registers are loaded, `BUSY` is set and the start
pull becomes outstanding, and nothing else changes. -/
def Obligations.RecvIssueStartsTheReception : Prop :=
  ∀ (f : CwFields) (s : State), Ready s →
    exec (.rdRecv f) s = .next { s with op := 0x30, dev := f.dev, addr := f.addr, count := f.count, len := f.len,
                                        busy := true, phase := .waitStart }

/-- spec/42 R173: the start step. -/
def Obligations.StartStepReadsTheDiscriminator : Prop :=
  ∀ s : State, s.phase = .waitStart →
    (∀ (b : Byte) (rest : List Byte), s.rxBytes = b :: rest →
      recvStep s = some (
        if b = 0xd0 then { s with rxBytes := rest, shl := 8, phase := .waitSubhdr }
        else if b = 0xd4 then { s with rxBytes := rest, shl := 12, phase := .waitSubhdr }
        else { s with rxBytes := rest, dout := [], olen := 0, status := 0x000014, phase := .idle, busy := false })) ∧
    (s.rxBytes = [] →
      (s.rxTerm = .eof → recvStep s =
        some { s with dout := [], olen := 0, status := 0x000013, phase := .idle, busy := false }) ∧
      (s.rxTerm = .ioError → recvStep s =
        some { s with dout := [], olen := 0, status := 0x000023, phase := .idle, busy := false }) ∧
      (s.rxTerm = .stillOpen → recvStep s = none))

/-- spec/42 R174: the sub-header step: the last two of `RD.SHL` bytes are the body length, low byte first; the others
are dropped unread. -/
def Obligations.SubheaderStepReadsTheLength : Prop :=
  ∀ s : State, s.phase = .waitSubhdr → 2 ≤ s.shl.toNat →
    (∀ (routing : List Byte) (l0 l1 : Byte) (rest : List Byte), s.rxBytes = routing ++ l0 :: l1 :: rest →
      routing.length + 2 = s.shl.toNat →
      recvStep s = some { s with rxBytes := rest, blen := un16 l0 l1, phase := .waitBody }) ∧
    (s.rxBytes.length < s.shl.toNat →
      (s.rxTerm = .eof → recvStep s = some
        { s with rxBytes := [], dout := [], olen := 0, status := 0x000013, phase := .idle, busy := false }) ∧
      (s.rxTerm = .ioError → recvStep s = some
        { s with rxBytes := [], dout := [], olen := 0, status := 0x000023, phase := .idle, busy := false }) ∧
      (s.rxTerm = .stillOpen → recvStep s = none))

/-- spec/42 R175, with spec/60 R287: the body step, in the order of its checks; a payload that `DOUT` can hold is
delivered, and one that it cannot hold is Capacity(ITEM_LIMIT). -/
def Obligations.BodyStepDeliversTheBody : Prop :=
  ∀ s : State, s.phase = .waitBody →
    (∀ body rest : List Byte, s.rxBytes = body ++ rest → body.length = s.blen.toNat →
      (s.params.maxBody < body.length → recvStep s = some
        { s with rxBytes := rest, dout := [], olen := 0, status := 0x00003d, phase := .idle, busy := false }) ∧
      (body.length ≤ s.params.maxBody → body.length < 2 → recvStep s = some
        { s with rxBytes := rest, dout := [], olen := 0, status := 0x000024, phase := .idle, busy := false }) ∧
      (body.length ≤ s.params.maxBody → ∀ (s0 s1 : Byte) (payload : List Byte), body = s0 :: s1 :: payload →
        (un16 s0 s1 ≠ 0 → ∃ u, recvStep s = some u ∧ u.err = 5 ∧ u.sub = 0 ∧ u.code = un16 s0 s1 ∧
          u = { s with rxBytes := rest, dout := [], olen := 0, status := u.status, phase := .idle, busy := false }) ∧
        (un16 s0 s1 = 0 → Fits s payload.length → recvStep s = some
          { s with rxBytes := rest, dout := bytes payload, olen := BitVec.ofNat 32 payload.length, status := 0,
                   phase := .idle, busy := false }) ∧
        (un16 s0 s1 = 0 → s.overCapacity payload.length = true → recvStep s = some
          { s with rxBytes := rest, dout := [], olen := 0, status := 0x00006d, phase := .idle, busy := false }))) ∧
    (s.rxBytes.length < s.blen.toNat →
      (s.rxTerm = .eof → recvStep s = some
        { s with rxBytes := [], dout := [], olen := 0, status := 0x000013, phase := .idle, busy := false }) ∧
      (s.rxTerm = .ioError → recvStep s = some
        { s with rxBytes := [], dout := [], olen := 0, status := 0x000023, phase := .idle, busy := false }) ∧
      (s.rxTerm = .stillOpen → recvStep s = none))

/-- The three steps together are the one function of the stream of spec/42 R179: from the start step on, with nothing
more arriving, `RD.RECV` ends as `recvAll` says and otherwise is still waiting; a payload is delivered when `DOUT`
can hold it. -/
def Obligations.ReceptionRefinesTheStreamFunction : Prop :=
  ∀ s : State, s.phase = .waitStart → s.busy = true →
    match recvAll s.params.maxBody s.rxBytes s.rxTerm with
    | .error k c v => (recvSteps 3 s).busy = false ∧ (recvSteps 3 s).phase = .idle ∧
        (recvSteps 3 s).status = errStatus k c v ∧ (recvSteps 3 s).dout = [] ∧ (recvSteps 3 s).olen = 0
    | .ok payload => Fits s payload.length →
        (recvSteps 3 s).busy = false ∧ (recvSteps 3 s).phase = .idle ∧ (recvSteps 3 s).status = 0 ∧
        (recvSteps 3 s).dout = bytes payload ∧ (recvSteps 3 s).olen = BitVec.ofNat 32 payload.length
    | .pending => (recvSteps 3 s).busy = true ∧ (recvSteps 3 s).phase ≠ .idle ∧ recvStep (recvSteps 3 s) = none ∧
        (recvSteps 3 s).status = s.status ∧ (recvSteps 3 s).dout = s.dout

/-- The bytes one completed `RD.RECV` removes (spec/42 R178): exactly one frame, or one byte after an invalid start,
or all that was left when the stream ended; the bytes after them stay. -/
def Obligations.ReceptionLeavesTheNextResponse : Prop :=
  ∀ s : State, s.phase = .waitStart → recvAll s.params.maxBody s.rxBytes s.rxTerm ≠ .pending →
    (recvSteps 3 s).rxBytes = s.rxBytes.drop (recvRemoved s.rxBytes) ∧
    (recvSteps 3 s).rxTerm = s.rxTerm

/-- A continuation step writes only the registers of the response decoder, `STATUS`, `DOUT`, `OLEN`, `BUSY` and the
front of `RX` (spec/42 R170; spec/10 R21, R26, R31, R34). -/
def Obligations.ContinuationsWriteTheirRegistersOnly : Prop :=
  ∀ s t : State, recvStep s = some t →
    t = { s with status := t.status, dout := t.dout, olen := t.olen, busy := t.busy, phase := t.phase, shl := t.shl,
                 blen := t.blen, rxBytes := t.rxBytes } ∧
    ∃ n, t.rxBytes = s.rxBytes.drop n

/-- spec/42 R180: on an open stream with too few bytes the block has no step: its move changes nothing, and `BUSY`
stays as it is. -/
def Obligations.OpenSilentStreamKeepsWaiting : Prop :=
  ∀ (s : State) (later : List Agent), s.sched = .block :: later → s.rxTerm = .stillOpen →
    (s.phase = .waitStart ∧ s.rxBytes = [] ∨ s.phase = .waitSubhdr ∧ s.rxBytes.length < s.shl.toNat ∨
      s.phase = .waitBody ∧ s.rxBytes.length < s.blen.toNat) →
    step s = .next { s with sched := later }

/-! ### Bit codec -/

/-- spec/43 R200: `ceil(n / 2)` bytes; boolean `i` is in byte `i / 2`, at bit 4 when `i` is even and at bit 0 when it is
odd; every other bit is 0. -/
def Obligations.BcEncPacksTwoPerByte : Prop :=
  ∀ (f : CwFields) (s : State) (v : List Bool), Ready s → s.din = v.map .bool → Fits s ((v.length + 1) / 2) →
    ∃ bs : List Byte, exec (.bcEnc f) s = .next (succeeded 0x40 f (bytes bs) s) ∧
      bs.length = (v.length + 1) / 2 ∧
      (∀ k j, (bs.getD k 0).getLsbD j =
        if j = 4 then v.getD (2 * k) false else if j = 0 then v.getD (2 * k + 1) false else false)

/-- spec/43 R202: `COUNT` booleans, boolean `i` from bit 4 of byte `i / 2` when `i` is even and from bit 0 when it is
odd; a payload too short for the count is ShapeError(SHORT_BIT_PAYLOAD). -/
def Obligations.BcDecUnpacksTwoPerByte : Prop :=
  ∀ (f : CwFields) (s : State) (bs : List Byte), Ready s → s.din = bytes bs →
    (2 * bs.length < f.count.toNat → exec (.bcDec f) s = .next (failed 0x41 f 0x00001b s)) ∧
    (f.count.toNat ≤ 2 * bs.length → Fits s f.count.toNat →
      ∃ v : List Bool, exec (.bcDec f) s = .next (succeeded 0x41 f (v.map .bool) s) ∧
        v.length = f.count.toNat ∧
        (∀ i, i < f.count.toNat →
          v.getD i false = (bs.getD (i / 2) 0).getLsbD (if i % 2 = 0 then 4 else 0)))

/-- spec/43 R204: what `BC.ENC` packs, `BC.DEC` with the same count gives back; with the count of all the values the
bytes hold, an odd sequence comes back with one trailing `false`. -/
def Obligations.BitsRoundTrip : Prop :=
  ∀ (f g : CwFields) (s t : State) (v : List Bool), Ready s → s.din = v.map .bool → Fits s (v.length + 1) →
    exec (.bcEnc f) s = .next t →
    (g.count.toNat = v.length →
      exec (.bcDec g) { t with din := t.dout } =
        .next (succeeded 0x41 g (v.map .bool) { t with din := t.dout })) ∧
    (g.count.toNat = 2 * ((v.length + 1) / 2) →
      exec (.bcDec g) { t with din := t.dout } = .next (succeeded 0x41 g
        ((if v.length % 2 = 0 then v else v ++ [false]).map .bool) { t with din := t.dout }))

/-! ### Word codec -/

/-- spec/44 R210: `2n` bytes, word `k` as its low byte at `2k` and its high byte at `2k + 1`. -/
def Obligations.WcEncEmitsLowByteFirst : Prop :=
  ∀ (f : CwFields) (s : State) (ws : List Word), Ready s → s.din = ws.map .word → Fits s (2 * ws.length) →
    ∃ bs : List Byte, exec (.wcEnc f) s = .next (succeeded 0x50 f (bytes bs) s) ∧ bs.length = 2 * ws.length ∧
      (∀ k, k < ws.length →
        bs.getD (2 * k) 0 = lo (ws.getD k 0) ∧ bs.getD (2 * k + 1) 0 = hi (ws.getD k 0))

/-- spec/44 R212: every pair of bytes is one word, low byte first; an odd number of bytes is MalformedFrame(ODD_LENGTH). -/
def Obligations.WcDecPairsBytes : Prop :=
  ∀ (f : CwFields) (s : State) (bs : List Byte), Ready s → s.din = bytes bs →
    (bs.length % 2 = 1 → exec (.wcDec f) s = .next (failed 0x51 f 0x000034 s)) ∧
    (bs.length % 2 = 0 → Fits s (bs.length / 2) →
      ∃ ws : List Word, exec (.wcDec f) s = .next (succeeded 0x51 f (ws.map .word) s) ∧ ws.length = bs.length / 2 ∧
        (∀ k, k < bs.length / 2 →
          (ws.getD k 0).toNat = (bs.getD (2 * k + 1) 0).toNat * 256 + (bs.getD (2 * k) 0).toNat))

/-- spec/44 R213: words come back from their bytes, and an even number of bytes from their words. -/
def Obligations.WordsRoundTrip : Prop :=
  (∀ (f g : CwFields) (s t : State) (ws : List Word), Ready s → s.din = ws.map .word → Fits s (2 * ws.length) →
    exec (.wcEnc f) s = .next t →
    exec (.wcDec g) { t with din := t.dout } =
      .next (succeeded 0x51 g (ws.map .word) { t with din := t.dout })) ∧
  (∀ (f g : CwFields) (s t : State) (bs : List Byte), Ready s → s.din = bytes bs → Fits s bs.length →
    bs.length % 2 = 0 → exec (.wcDec f) s = .next t →
    exec (.wcEnc g) { t with din := t.dout } = .next (succeeded 0x50 g (bytes bs) { t with din := t.dout }))

/-- spec/44 R214: the characters in order, then one NUL when their number is odd and two when it is even. -/
def Obligations.WcSencPadsWithNul : Prop :=
  ∀ (f : CwFields) (s : State) (cs : List Byte), Ready s → s.din = cs.map .char →
    Fits s (cs.length + (2 - cs.length % 2)) →
    exec (.wcSenc f) s = .next (succeeded 0x52 f (bytes (cs ++ List.replicate (2 - cs.length % 2) 0)) s) ∧
    cs ++ List.replicate (2 - cs.length % 2) 0 =
      wordEncode (packChars cs ((cs.length + (2 - cs.length % 2)) / 2))

/-- spec/44 R217: the first `LEN` payload bytes as characters, uncut and unchecked; the odd length is tested before the
shortness. -/
def Obligations.WcSdecTakesTheFirstCharacters : Prop :=
  ∀ (f : CwFields) (s : State) (bs : List Byte), Ready s → s.din = bytes bs →
    (bs.length % 2 = 1 → exec (.wcSdec f) s = .next (failed 0x53 f 0x000034 s)) ∧
    (bs.length % 2 = 0 → bs.length < f.len.toNat → exec (.wcSdec f) s = .next (failed 0x53 f 0x00002b s)) ∧
    (bs.length % 2 = 0 → f.len.toNat ≤ bs.length → Fits s f.len.toNat →
      exec (.wcSdec f) s = .next (succeeded 0x53 f ((bs.take f.len.toNat).map .char) s))

/-- spec/44 R220: a string that was encoded comes back, whole or up to a smaller logical length. -/
def Obligations.StringsRoundTrip : Prop :=
  ∀ (f g : CwFields) (s t : State) (cs : List Byte), Ready s → s.din = cs.map .char → Fits s (cs.length + 2) →
    g.len.toNat ≤ cs.length → exec (.wcSenc f) s = .next t →
    exec (.wcSdec g) { t with din := t.dout } =
      .next (succeeded 0x53 g ((cs.take g.len.toNat).map .char) { t with din := t.dout })

/-! ### Record marshaler -/

/-- spec/45 R230, R231: descriptors that are all supported, within both limits, fill the table, one entry each with its
kind, length and width, and the sum of the widths as the size. -/
def Obligations.LayoutFillsTheTable : Prop :=
  ∀ (f : CwFields) (s : State) (ds : List Descriptor) (es : List LtEntry), Ready s → s.din = ds.map .desc →
    ds.length ≤ s.params.maxFields → ds.map entryFor = es.map some → wordsOf es ≤ 0xFFFF →
    exec (.rmLayout f) s = .next (succeeded 0x60 f [] (withTable es s))

/-- spec/45 R231, R232: too many descriptors, or else the first descriptor that fails, decide the error, and the table
holds no layout afterwards, whatever it held before. -/
def Obligations.LayoutErrorClearsTheTable : Prop :=
  ∀ (f : CwFields) (s : State) (ds : List Descriptor), Ready s → s.din = ds.map .desc →
    (s.params.maxFields < ds.length → exec (.rmLayout f) s = .next (failed 0x60 f 0x00004d (withoutTable s))) ∧
    (∀ (pre post : List Descriptor) (d : Descriptor) (es : List LtEntry), ds = pre ++ d :: post →
      ds.length ≤ s.params.maxFields → pre.map entryFor = es.map some → wordsOf es ≤ 0xFFFF →
      ((d.extractLsb' 0 8 = 0 ∨ 7 ≤ (d.extractLsb' 0 8).toNat) →
        exec (.rmLayout f) s = .next (failed 0x60 f 0x000007 (withoutTable s))) ∧
      (d = 0x000006 → exec (.rmLayout f) s = .next (failed 0x60 f 0x000008 (withoutTable s))) ∧
      (∀ e, entryFor d = some e → 0xFFFF < wordsOf es + e.w.toNat →
        exec (.rmLayout f) s = .next (failed 0x60 f 0x00005d (withoutTable s))))

/-- spec/45 R234: `RM.SIZEOF` answers `LT.SIZE`, and NO_LAYOUT without a layout. -/
def Obligations.SizeofReportsTheSize : Prop :=
  ∀ (f : CwFields) (s : State), Ready s →
    (s.ltValid = true → exec (.rmSizeof f) s = .next (scalar 0x61 f s.ltSize s)) ∧
    (s.ltValid = false → exec (.rmSizeof f) s = .next (failed 0x61 f 0x00007b s))

/-- spec/45 R236: the two errors in their order; otherwise field `i` is decoded from the words at the sum of the widths
before it. -/
def Obligations.RmDecWalksTheFields : Prop :=
  ∀ (f : CwFields) (s : State) (ws : List Word), Ready s → s.din = ws.map .word →
    (s.ltValid = false → exec (.rmDec f) s = .next (failed 0x62 f 0x00007b s)) ∧
    (s.ltValid = true → ws.length ≠ s.ltSize.toNat → exec (.rmDec f) s = .next (failed 0x62 f 0x00003b s)) ∧
    (s.ltValid = true → ws.length = s.ltSize.toNat → s.ltF.length = s.ltN → Fits s s.ltN →
      ∃ vs : List FieldVal, exec (.rmDec f) s = .next (succeeded 0x62 f (vs.map .val) s) ∧ vs.length = s.ltN ∧
        ∀ i e, s.ltF[i]? = some e →
          vs[i]? = some (fieldDecode e ((ws.drop (wordsOf (s.ltF.take i))).take e.w.toNat)))

/-- spec/45 R237: the value of a field by its kind, on the words of its slice. The Int16 and Int32 clauses are the
two's-complement reading, which spec/00 R14 marks as this spec's own and log 20 as PRESUMED. -/
def Obligations.FieldsDecodeByKind : Prop :=
  ∀ (c w w0 w1 : Word) (ws : List Word),
    fieldDecode ⟨.bool, 0, 1⟩ [w] = .b (if w = 0 then false else true) ∧
    fieldDecode ⟨.int16, 0, 1⟩ [w] = .i16 (if w.toNat < 32768 then w.toNat else (w.toNat : Int) - 65536) ∧
    fieldDecode ⟨.uint16, 0, 1⟩ [w] = .u16 w ∧
    (∃ v : Int, fieldDecode ⟨.int32, 0, 2⟩ [w0, w1] = .i32 v ∧ -2147483648 ≤ v ∧ v < 2147483648 ∧
      v % 4294967296 = w1.toNat * 65536 + w0.toNat) ∧
    (∃ v : DWord, fieldDecode ⟨.uint32, 0, 2⟩ [w0, w1] = .u32 v ∧ v.toNat = w1.toNat * 65536 + w0.toNat) ∧
    (ws.length = c.toNat / 2 + 1 → ∃ cs : List Byte,
      fieldDecode ⟨.string, c, BitVec.ofNat 16 (c.toNat / 2 + 1)⟩ ws = .s cs ∧ cs.length = c.toNat ∧
      ∀ i, i < c.toNat → cs.getD i 0 = if i % 2 = 0 then lo (ws.getD (i / 2) 0) else hi (ws.getD (i / 2) 0))

/-- spec/45 R240, R241: the errors in their order, the first field that fails deciding between variant and length;
otherwise the words of every field in order. -/
def Obligations.RmEncWalksTheFields : Prop :=
  ∀ (f : CwFields) (s : State) (vs : List FieldVal), Ready s → s.din = vs.map .val →
    (∀ v ∈ vs, v.inRange = true) →
    (s.ltValid = false → exec (.rmEnc f) s = .next (failed 0x63 f 0x00007b s)) ∧
    (s.ltValid = true → vs.length ≠ s.ltN → exec (.rmEnc f) s = .next (failed 0x63 f 0x00004b s)) ∧
    (s.ltValid = true → vs.length = s.ltN → s.ltF.length = s.ltN →
      (∀ (i : Nat) (e : LtEntry) (v : FieldVal), s.ltF[i]? = some e → vs[i]? = some v →
        (∀ (j : Nat) (e' : LtEntry) (v' : FieldVal), j < i → s.ltF[j]? = some e' → vs[j]? = some v' →
          variantFits e'.kind v' = true ∧ lengthFits e' v' = true) →
        (variantFits e.kind v = false → exec (.rmEnc f) s = .next (failed 0x63 f 0x00005b s)) ∧
        (variantFits e.kind v = true → lengthFits e v = false →
          exec (.rmEnc f) s = .next (failed 0x63 f 0x00006b s))) ∧
      ((∀ (i : Nat) (e : LtEntry) (v : FieldVal), s.ltF[i]? = some e → vs[i]? = some v →
          variantFits e.kind v = true ∧ lengthFits e v = true) →
        Fits s ((List.zipWith fieldEncode s.ltF vs).flatten.length) →
        exec (.rmEnc f) s =
          .next (succeeded 0x63 f ((List.zipWith fieldEncode s.ltF vs).flatten.map .word) s)))

/-- spec/45 R241: the words of a field value by its kind. The I16 and I32 clauses are the two's-complement reading, which
spec/00 R14 marks as this spec's own and log 20 as PRESUMED. -/
def Obligations.FieldsEncodeByKind : Prop :=
  ∀ (e : LtEntry) (b : Bool) (v : Int) (w : Word) (d : DWord) (cs : List Byte),
    fieldEncode e (.b b) = [if b then 0x0001 else 0x0000] ∧
    (-32768 ≤ v → v < 32768 → ∃ x : Word, fieldEncode e (.i16 v) = [x] ∧ x.toInt = v) ∧
    fieldEncode e (.u16 w) = [w] ∧
    (-2147483648 ≤ v → v < 2147483648 → ∃ w0 w1 : Word, fieldEncode e (.i32 v) = [w0, w1] ∧
      ((w1.toNat * 65536 + w0.toNat : Nat) : Int) = v % 4294967296) ∧
    (∃ w0 w1 : Word, fieldEncode e (.u32 d) = [w0, w1] ∧ w1.toNat * 65536 + w0.toNat = d.toNat) ∧
    (cs.length = e.clen.toNat → ∃ ws : List Word, fieldEncode e (.s cs) = ws ∧
      ws.length = e.clen.toNat / 2 + 1 ∧
      ∀ k, lo (ws.getD k 0) = cs.getD (2 * k) 0 ∧ hi (ws.getD k 0) = cs.getD (2 * k + 1) 0)

/-- spec/45 R243: on every sound layout table, a record that `RM.ENC` accepts comes back from `RM.DEC`, and its words
are exactly `LT.SIZE`. -/
def Obligations.RecordsRoundTrip : Prop :=
  ∀ (f g : CwFields) (s t : State) (vs : List FieldVal), s.layoutSound = true → s.din = vs.map .val →
    exec (.rmEnc f) s = .next t → t.status = 0 → Fits s vs.length →
    t.dout.length = s.ltSize.toNat ∧
    exec (.rmDec g) { t with din := t.dout } =
      .next (succeeded 0x62 g (vs.map .val) { t with din := t.dout })

/-- spec/45 R243, the other direction: words of the right number come back from the record they decode to, each Bool word
made 0 or 1 and each String's padding made NUL. -/
def Obligations.RecordWordsComeBackNormalised : Prop :=
  ∀ (f g : CwFields) (s t : State) (ws : List Word), s.layoutSound = true → s.din = ws.map .word →
    exec (.rmDec f) s = .next t → t.status = 0 → Fits s ws.length →
    exec (.rmEnc g) { t with din := t.dout } =
      .next (succeeded 0x63 g ((normalised s.ltF ws).map .word) { t with din := t.dout })

/-! ### Wire frames -/

/-- The outbound frames (spec/30 R95 to R98, spec/46 R260): the host hands exactly the bytes of the table of R95 to the
transport, and nothing of the block changes (log 13). -/
def Obligations.RequestFramesGoOut : Prop :=
  ∀ (k : DevKind) (addr : Word) (code : Byte) (count : Word) (payload data : List Byte) (sub : Word) (s : State),
    exec (.reqRead k addr code count) s = .next { s with tx := s.tx ++
      [0x50, 0x00, 0x00, 0xff, 0xff, 0x03, 0x00, 0x0c, 0x00, 0x00, 0x00, 0x01, 0x04,
       (if k = .bit then 0x01 else 0x00), 0x00, lo addr, hi addr, 0x00, code, lo count, hi count] } ∧
    (payload.length ≤ 65523 →
      exec (.reqWrite k addr code count payload) s = .next { s with tx := s.tx ++
        ([0x50, 0x00, 0x00, 0xff, 0xff, 0x03, 0x00, lo (BitVec.ofNat 16 (12 + payload.length)),
          hi (BitVec.ofNat 16 (12 + payload.length)), 0x00, 0x00, 0x01, 0x14,
          (if k = .bit then 0x01 else 0x00), 0x00, lo addr, hi addr, 0x00, code, lo count, hi count] ++ payload) }) ∧
    (data.length ≤ 65529 →
      exec (.reqSelftest sub data) s = .next { s with tx := s.tx ++
        ([0x50, 0x00, 0x00, 0xff, 0xff, 0x03, 0x00, lo (BitVec.ofNat 16 (6 + data.length)),
          hi (BitVec.ofNat 16 (6 + data.length)), 0x00, 0x00, 0x17, 0x16, lo sub, hi sub] ++ data) })

/-- The inbound frames (spec/30 R100 to R102, spec/10 R33): on an open stream the bytes of the table of R100 are appended
to `RX.bytes` and nothing else changes; on a closed stream there is no such step (log 13). -/
def Obligations.ResponseFramesArrive : Prop :=
  ∀ (routing body : List Byte) (s : State), body.length ≤ 65535 →
    (routing.length = 6 → s.rxTerm = .stillOpen →
      exec (.respD0 routing body) s = .next { s with rxBytes := s.rxBytes ++
        (0xd0 :: (routing ++ [lo (BitVec.ofNat 16 body.length), hi (BitVec.ofNat 16 body.length)] ++ body)) }) ∧
    (routing.length = 10 → s.rxTerm = .stillOpen →
      exec (.respD4 routing body) s = .next { s with rxBytes := s.rxBytes ++
        (0xd4 :: (routing ++ [lo (BitVec.ofNat 16 body.length), hi (BitVec.ofNat 16 body.length)] ++ body)) }) ∧
    (routing.length = 6 → s.rxTerm ≠ .stillOpen → exec (.respD0 routing body) s = .refused .streamClosed) ∧
    (routing.length = 10 → s.rxTerm ≠ .stillOpen → exec (.respD4 routing body) s = .refused .streamClosed)

/-- End to end (spec/42 R172 to R176): a response that arrives, in either form and with any ignored sub-header bytes,
after `RD.RECV` was issued on an empty open stream is received in three block steps: its payload on status zero, and
RemoteStatusError with its status otherwise; the stream is empty again. -/
def Obligations.ArrivedResponseIsReceived : Prop :=
  ∀ (f : CwFields) (s t u : State) (i : Instr) (routing payload : List Byte) (s0 s1 : Byte),
    Ready s → s.rxBytes = [] → exec (.rdRecv f) s = .next t →
    (i = .respD0 routing (s0 :: s1 :: payload) ∨ i = .respD4 routing (s0 :: s1 :: payload)) →
    exec i t = .next u → payload.length + 2 ≤ s.params.maxBody → Fits s payload.length →
    (recvSteps 3 u).rxBytes = [] ∧ (recvSteps 3 u).busy = false ∧
    (un16 s0 s1 = 0 → (recvSteps 3 u).status = 0 ∧ (recvSteps 3 u).dout = bytes payload) ∧
    (un16 s0 s1 ≠ 0 → (recvSteps 3 u).err = 5 ∧ (recvSteps 3 u).code = un16 s0 s1 ∧ (recvSteps 3 u).dout = [])

/-! ### Errors, completion, the command port -/

/-- spec/30 R94: every `OP` outside the table completes at once with IllegalOp and changes nothing but `STATUS`, `DOUT`
and `OLEN`; there are 239 such values. Two clauses are the model's choice: that the operand registers and `DIN` keep their
values, against spec/10 R21 (log 10), and that the issue completes also with a `DIN` longer than `MAX_ITEMS`, against
spec/60 R287 (log 30). -/
def Obligations.IllegalOpChangesNothingElse : Prop :=
  ((List.range 256).filter fun n => !opCodes.contains n).length = 239 ∧
  ∀ (s : State) (cw : CmdWord) (din : List Item) (rest : List HostAct) (later : List Agent),
    Issues s cw din rest later → s.busy = false → s.phase = .idle → (cw.extractLsb' 0 8).toNat ∉ opCodes →
    step s = .next { s with hostQ := rest, sched := later, status := 0x00000c, dout := [], olen := 0 }

/-- spec/20 R70: while `BUSY = 1` no operation is accepted: none has a meaning, and an attempt neither queues nor
overwrites a register nor faults; what the host wants to issue stays with the host. -/
def Obligations.BusyPortTakesNoOperation : Prop :=
  ∀ s : State, s.busy = true →
    (∀ (f : CwFields) (mk : CwFields → Instr), mk ∈ operations → exec (mk f) s = .refused .commandPortBusy) ∧
    (∀ (cw : CmdWord) (din : List Item) (rest : List HostAct) (later : List Agent), Issues s cw din rest later →
      step s = .next { s with sched := later })

/-- Where a form stops, it stops by name (logs 12, 13, 19, 29): an operation with a `DIN` the port cannot carry or with an
item of another type, a frame that no length field can count, a response term that no frame has. -/
def Obligations.EveryStopHasItsName : Prop :=
  ∀ (f : CwFields) (s : State), s.busy = false →
    (s.overCapacity s.din.length = true → ∀ mk ∈ operations, exec (mk f) s = .refused .dinTooLong) ∧
    (s.overCapacity s.din.length = false → ∀ x ∈ s.din,
      (Item.byte? x = none → ∀ mk ∈ [Instr.feWrite, .bcDec, .wcDec, .wcSdec], exec (mk f) s = .refused .dinItemType) ∧
      (Item.bool? x = none → exec (.bcEnc f) s = .refused .dinItemType) ∧
      (Item.word? x = none → ∀ mk ∈ [Instr.wcEnc, .rmDec], exec (mk f) s = .refused .dinItemType) ∧
      (Item.char? x = none → exec (.wcSenc f) s = .refused .dinItemType) ∧
      (Item.desc? x = none → exec (.rmLayout f) s = .refused .dinItemType) ∧
      (Item.val? x = none → exec (.rmEnc f) s = .refused .dinItemType)) ∧
    (s.overCapacity s.din.length = false →
      (65529 < s.params.stData.length → exec (.feSelftest f) s = .fault .frameUndefined) ∧
      (∀ (row : DevRow) (payload : List Byte), s.params.devtab[f.dev.toNat]? = some row → s.din = bytes payload →
        f.count.toNat ≤ s.params.maxCount → payload.length ≤ s.params.maxPayload → 65523 < payload.length →
        exec (.feWrite f) s = .fault .frameUndefined)) ∧
    (∀ (k : DevKind) (addr count sub : Word) (code : Byte) (bs : List Byte),
      (65523 < bs.length → exec (.reqWrite k addr code count bs) s = .fault .frameUndefined) ∧
      (65529 < bs.length → exec (.reqSelftest sub bs) s = .fault .frameUndefined)) ∧
    (∀ routing body : List Byte,
      (routing.length ≠ 6 ∨ 65535 < body.length → exec (.respD0 routing body) s = .refused .illFormedFrame) ∧
      (routing.length ≠ 10 ∨ 65535 < body.length → exec (.respD4 routing body) s = .refused .illFormedFrame))

/-- spec/60 R281 to R284: what the two completions write, that they write nothing else, and the numeric codes of every
kind and sub-cause that the block raises. -/
def Obligations.CompletionsWriteWhatTheySay : Prop :=
  ((raisedPairs.map fun p => (errStatus p.1 p.2 0).toNat) =
    [0x13, 0x23, 0x14, 0x24, 0x34, 0x05, 0x07, 0x08, 0x0a, 0x1b, 0x2b, 0x3b, 0x4b, 0x5b, 0x6b, 0x7b, 0x0c, 0x1d, 0x2d,
     0x3d, 0x4d, 0x5d, 0x6d]) ∧
  ∀ (s : State) (k : ErrKind) (c : SubCause) (v : Word) (out : List Item), out.length < 2 ^ 32 →
    s.complete k c v = { s with dout := [], olen := 0, status := (s.complete k c v).status, phase := .idle,
                                busy := false } ∧
    (s.complete k c v).err = errCode k ∧ (s.complete k c v).sub = subCode c ∧ (s.complete k c v).code = v ∧
    s.doneWith out = { s with dout := out, olen := BitVec.ofNat 32 out.length, status := 0, phase := .idle,
                              busy := false }

/-- spec/60 R287, of every operation but `RD.RECV` (whose body step says it of itself): what it does under a bound
`MAX_ITEMS` is what it does without one, but that a `DOUT` of more items becomes Capacity(ITEM_LIMIT). -/
def Obligations.TooManyItemsIsACapacityError : Prop :=
  ∀ (f : CwFields) (mk : CwFields → Instr) (s t : State) (m : Nat), mk ∈ operations → mk f ≠ .rdRecv f →
    s.params.maxItems = some m → s.din.length ≤ m →
    exec (mk f) { s with params := { s.params with maxItems := none } } = .next t →
    exec (mk f) s = .next (
      if m < t.dout.length then { t with params := s.params, dout := [], olen := 0, status := 0x00006d }
      else { t with params := s.params })

/-- spec/10 R26: `RES` is written by the successful completion of the four scalar operations only. -/
def Obligations.OnlyScalarOperationsWriteRes : Prop :=
  ∀ (i : Instr) (s t : State), exec i s = .next t →
    t.res = s.res ∨ (t.status = 0 ∧
      ((∃ f, i = .dtKind f) ∨ (∃ f, i = .dtCode f) ∨ (∃ f, i = .dtSubcmd f) ∨ (∃ f, i = .rmSizeof f)))

/-- The layout table is written by `RM.LAYOUT` only, and `RX` by no command at all in its issue step
(spec/10 R33, R36; spec/42 R171). -/
def Obligations.TableAndStreamHaveOneWriter : Prop :=
  ∀ (f : CwFields) (mk : CwFields → Instr) (s t : State), mk ∈ operations → exec (mk f) s = .next t →
    t.rxBytes = s.rxBytes ∧ t.rxTerm = s.rxTerm ∧ t.din = s.din ∧ t.params = s.params ∧
    (mk f ≠ .rmLayout f → t.ltValid = s.ltValid ∧ t.ltN = s.ltN ∧ t.ltSize = s.ltSize ∧ t.ltF = s.ltF)

/-- spec/30 R92: the fields an operation does not read are ignored: but for the operand registers, which hold what was
issued, the outcome is the same whatever they are. -/
def Obligations.UnreadFieldsAreIgnored : Prop :=
  ∀ (f g : CwFields) (s : State) (mk : CwFields → Instr) (dev addr count len : Bool),
    (mk, dev, addr, count, len) ∈
      [(Instr.dtKind, true, false, false, false), (Instr.dtCode, true, false, false, false),
       (Instr.dtSubcmd, true, false, false, false), (Instr.feRead, true, true, true, false),
       (Instr.feWrite, true, true, true, false), (Instr.feSelftest, false, false, false, false),
       (Instr.rdRecv, false, false, false, false), (Instr.bcEnc, false, false, false, false),
       (Instr.bcDec, false, false, true, false), (Instr.wcEnc, false, false, false, false),
       (Instr.wcDec, false, false, false, false), (Instr.wcSenc, false, false, false, false),
       (Instr.wcSdec, false, false, false, true), (Instr.rmLayout, false, false, false, false),
       (Instr.rmSizeof, false, false, false, false), (Instr.rmDec, false, false, false, false),
       (Instr.rmEnc, false, false, false, false)] →
    agreeOn dev addr count len f g →
    view eraseOperands (exec (mk f) s) = view eraseOperands (exec (mk g) s)

/-- spec/10 R28: no operation's behaviour depends on `STATUS`, `RES`, `OLEN` or `DOUT`: with other values in them, the
outcome is the same but for what of them the operation leaves as it was. -/
def Obligations.ResultsOfThePastDoNotMatter : Prop :=
  ∀ (i : Instr) (s : State) (st : BitVec 24) (v : Word) (n : BitVec 32) (out : List Item),
    view (fun t => { t with status := 0, res := 0, olen := 0, dout := [] })
        (exec i { s with status := st, res := v, olen := n, dout := out }) =
      view (fun t => { t with status := 0, res := 0, olen := 0, dout := [] }) (exec i s) ∧
    (∀ (f : CwFields) (mk : CwFields → Instr), mk ∈ operations → i = mk f → i ≠ .rdRecv f →
      view (fun t => { t with res := 0 }) (exec i { s with status := st, res := v, olen := n, dout := out }) =
        view (fun t => { t with res := 0 }) (exec i s))

/-- spec/10 R21, R44: after any accepted issue of a defined operation, the host reads back the command word it wrote. -/
def Obligations.IssuedWordReadsBack : Prop :=
  ∀ (s t : State) (cw : CmdWord) (din : List Item) (rest : List HostAct) (later : List Agent),
    Issues s cw din rest later → s.busy = false → (cw.extractLsb' 0 8).toNat ∈ opCodes → step s = .next t →
    t.hostRead .command = some (.command cw) ∧ t.din = din

/-! ### Reset -/

/-- spec/10 R45: the reset values the spec gives; what it leaves unspecified is not stated. -/
def Obligations.ResetValuesAreTheSpecs : Prop :=
  State.reset.busy = false ∧ State.reset.status = 0 ∧ State.reset.res = 0 ∧ State.reset.olen = 0 ∧
  State.reset.din = [] ∧ State.reset.dout = [] ∧ State.reset.phase = .idle ∧ State.reset.ltValid = false ∧
  State.reset.ltN = 0 ∧ State.reset.ltSize = 0

/-- spec/70 R320, R321: `RESET` from any state, also in the middle of `RD.RECV`, gives the specified reset values and
leaves `RX` and the constants as they are; the elements the spec leaves unspecified are not stated. -/
def Obligations.ResetAbandonsWhateverRuns : Prop :=
  ∀ (s : State) (rest : List HostAct) (later : List Agent), s.hostQ = .reset :: rest → s.sched = .host :: later →
    ∃ t, step s = .next t ∧ t.busy = false ∧ t.status = 0 ∧ t.res = 0 ∧ t.olen = 0 ∧ t.din = [] ∧ t.dout = [] ∧
      t.phase = .idle ∧ t.ltValid = false ∧ t.ltN = 0 ∧ t.ltSize = 0 ∧ t.rxBytes = s.rxBytes ∧
      t.rxTerm = s.rxTerm ∧ t.params = s.params

/-! ### Steps, decoding, invariants -/

/-- A step runs the decoded instruction. That a frame on its way out or in is an instruction which a step executes is the
model's reading of the table's wire rows (log 13), and the agents' lists and the schedule are the model's fields (log 1);
that a command word is one is spec/30 R93. What the scheduled agent puts on its port, when it decodes, is executed on the
state with that action taken off the agent's list; a command word brings its `DIN` with it and needs `BUSY = 0`. -/
def Obligations.StepRunsTheDecodedInstruction : Prop :=
  ∀ (s : State) (i : Instr) (later : List Agent),
    (∀ (cw : CmdWord) (din : List Item) (rest : List HostAct), s.sched = .host :: later →
      s.hostQ = .issue cw din :: rest → s.busy = false → decode (.command cw) = .ok i →
      step s = exec i { s with sched := later, hostQ := rest, din := din }) ∧
    (∀ (bs : List Byte) (rest : List HostAct), s.sched = .host :: later → s.hostQ = .send bs :: rest →
      decode (.outbound bs) = .ok i → step s = exec i { s with sched := later, hostQ := rest }) ∧
    (∀ (bs : List Byte) (rest : List WireAct), s.sched = .transport :: later → s.wireQ = .append bs :: rest →
      s.rxTerm = .stillOpen → decode (.inbound bs) = .ok i →
      step s = exec i { s with sched := later, wireQ := rest })

/-- Words of spec/95 section 2, written out from the encodings, decode to the operations they stand for. -/
def Obligations.SpecWordsDecode : Prop :=
  decodeTableWord 64 0x0000000000000510 = some (.dtKind ⟨5, 0, 0, 0⟩) ∧
  decodeTableWord 64 0x0000000a00640520 = some (.feRead ⟨5, 100, 10, 0⟩) ∧
  decodeTableWord 64 0x0000000000000030 = some (.rdRecv ⟨0, 0, 0, 0⟩) ∧
  decodeTableWord 64 0x0000000300000041 = some (.bcDec ⟨0, 0, 3, 0⟩) ∧
  decodeTableWord 64 0x0005000000000053 = some (.wcSdec ⟨0, 0, 0, 5⟩) ∧
  decodeTableWord 64 0x0000000000000060 = some (.rmLayout ⟨0, 0, 0, 0⟩) ∧
  decodeTableWord 64 0x0000000000000099 = none

/-- Decode and encode agree: every well-formed instruction of the whole table comes back from its code, with every
operand at every value. -/
def Obligations.DecodeOfEncode : Prop :=
  ∀ i : Instr, i.wf = true → decode (encode i) = .ok i

/-- The other direction: whatever the decoder reads, on any port, is well formed, and its encoding is exactly what was
read; so no bit of an accepted code is dropped and no two codes of one port mean the same instruction. -/
def Obligations.EncodeOfDecode : Prop :=
  ∀ (c : Code) (i : Instr), decode c = .ok i → i.wf = true ∧ encode i = c

/-- The invariant of the machine (spec/10 R23, R25, R27, R32, R34 to R36, R41, R42; spec/60 R287): every step of every
agent, from every state that meets it, keeps it. -/
def Obligations.EveryStepKeepsTheStateSound : Prop :=
  ∀ s t : State, s.sound = true → step s = .next t → t.sound = true

/-- The state after reset meets the invariant. -/
def Obligations.ResetIsSound : Prop := State.reset.sound = true

/-- From a sound state no run, of any length and on any schedule, ends in a fault. -/
def Obligations.SoundRunsNeverFault : Prop :=
  ∀ (n : Nat) (s : State), s.sound = true → Safe n s

/-- spec/10 R42: the parameters, `DEVTAB` among them, are changed by no step of any agent. -/
def Obligations.ParametersNeverChange : Prop :=
  ∀ s t : State, step s = .next t → t.params = s.params

/-- spec/10 R33: the transport's move only appends to the inbound stream or closes it, and touches nothing of the
block; whatever bytes it appends, framed or not, arrive as they are. -/
def Obligations.TransportOnlyAppendsOrCloses : Prop :=
  ∀ (s : State) (later : List Agent), s.sched = .transport :: later →
    (s.rxTerm ≠ .stillOpen → step s = .next { s with sched := later }) ∧
    (s.rxTerm = .stillOpen →
      (s.wireQ = [] → step s = .next { s with sched := later }) ∧
      (∀ (bs : List Byte) (rest : List WireAct), s.wireQ = .append bs :: rest →
        step s = .next { s with sched := later, wireQ := rest, rxBytes := s.rxBytes ++ bs }) ∧
      (∀ rest : List WireAct, s.wireQ = .close .eof :: rest →
        step s = .next { s with sched := later, wireQ := rest, rxTerm := .eof }) ∧
      (∀ rest : List WireAct, s.wireQ = .close .ioError :: rest →
        step s = .next { s with sched := later, wireQ := rest, rxTerm := .ioError }))

/-! ### Host sequences -/

/-- `readWord` (spec/46 R264) from end to end, over the model's rendering of a host sequence, in which the reply is an
argument (log 23): on a connected client and a Word device, a station that answers the one request, in either response
form and with any ignored sub-header bytes, with the words `ws` and status zero gives exactly `ws` to the caller. -/
def Obligations.ReadWordReturnsTheStationsWords : Prop :=
  ∀ (s : State) (d disc : Byte) (addr count : Word) (row : DevRow) (routing : List Byte) (ws : List Word),
    s.busy = false → s.params.maxItems = none → s.rxBytes = [] → s.rxTerm = .stillOpen →
    s.params.devtab[d.toNat]? = some row → row.kind = .word → count.toNat ≤ s.params.maxCount →
    (disc = 0xd0 ∧ routing.length = 6 ∨ disc = 0xd4 ∧ routing.length = 10) →
    2 * ws.length + 2 ≤ s.params.maxBody → 2 * ws.length + 2 ≤ 65535 →
    (readWord .connected ⟨true, [.append (encodeResponse disc routing (0 :: 0 :: wordEncode ws))]⟩ d addr count s).2 =
      .ok ws

/-- The checks before any I/O (spec/46 R262), of every sequence that makes them (log 23). A client that is not connected,
one that is still connecting among them, gets NotConnected and nothing of the machine changes; `selfTest` swallows it to
`false` (R270). On a connected client a device of the other kind gets DeviceKindMismatch before any byte is sent or
received. `readStruct` loads its layout first (R269): an accepted one is in the table then, and still nothing is sent or
received. -/
def Obligations.GuardComesBeforeAnyIo : Prop :=
  ∀ (s : State) (x : Exchange) (d : Byte) (addr n : Word) (vs : List Bool) (ws : List Word) (cs : List Byte),
    (∀ c : Conn, c ≠ .connected →
      readBit c x d addr n s = (s, .error .notConnected) ∧ readWord c x d addr n s = (s, .error .notConnected) ∧
      readString c x d addr n s = (s, .error .notConnected) ∧ writeBit c x d addr vs s = (s, .error .notConnected) ∧
      writeWord c x d addr ws s = (s, .error .notConnected) ∧
      writeString c x d addr cs s = (s, .error .notConnected) ∧ selfTest c x s = (s, .ok false)) ∧
    (∀ row : DevRow, s.busy = false → s.params.maxItems = none → s.params.devtab[d.toNat]? = some row →
      (row.kind = .bit →
        StopsBeforeIo (readWord .connected x d addr n s) .deviceKindMismatch s ∧
        StopsBeforeIo (readString .connected x d addr n s) .deviceKindMismatch s ∧
        StopsBeforeIo (writeWord .connected x d addr ws s) .deviceKindMismatch s ∧
        StopsBeforeIo (writeString .connected x d addr cs s) .deviceKindMismatch s) ∧
      (row.kind = .word →
        StopsBeforeIo (readBit .connected x d addr n s) .deviceKindMismatch s ∧
        StopsBeforeIo (writeBit .connected x d addr vs s) .deviceKindMismatch s)) ∧
    (∀ (ds : List Descriptor) (es : List LtEntry), s.busy = false → s.params.maxItems = none →
      ds.length ≤ s.params.maxFields → ds.map entryFor = es.map some → wordsOf es ≤ 0xFFFF →
      (∀ c : Conn, c ≠ .connected → readStruct c x ds d addr s =
        (succeeded 0x60 ⟨0, 0, 0, 0⟩ [] (withTable es { s with din := ds.map .desc }), .error .notConnected)) ∧
      (∀ row : DevRow, s.params.devtab[d.toNat]? = some row → row.kind = .bit →
        StopsBeforeIo (readStruct .connected x ds d addr s) .deviceKindMismatch s))
end

