-- ==== Sys2Proof/Laws/State.lean ====
section
/-! SUPPORT. One lemma per field per named update of the state, each true by unfolding the update. -/

namespace Sys2Proof.Machine

/-! ### `State.complete` -/

@[simp] theorem State.complete_op (s : State) (k : ErrKind) (c : SubCause) (v : Word) : (s.complete k c v).op = s.op := rfl
@[simp] theorem State.complete_dev (s : State) (k : ErrKind) (c : SubCause) (v : Word) : (s.complete k c v).dev = s.dev := rfl
@[simp] theorem State.complete_addr (s : State) (k : ErrKind) (c : SubCause) (v : Word) : (s.complete k c v).addr = s.addr := rfl
@[simp] theorem State.complete_count (s : State) (k : ErrKind) (c : SubCause) (v : Word) : (s.complete k c v).count = s.count := rfl
@[simp] theorem State.complete_len (s : State) (k : ErrKind) (c : SubCause) (v : Word) : (s.complete k c v).len = s.len := rfl
@[simp] theorem State.complete_busy (s : State) (k : ErrKind) (c : SubCause) (v : Word) : (s.complete k c v).busy = false := rfl
@[simp] theorem State.complete_status (s : State) (k : ErrKind) (c : SubCause) (v : Word) : (s.complete k c v).status = errStatus k c v := rfl
@[simp] theorem State.complete_res (s : State) (k : ErrKind) (c : SubCause) (v : Word) : (s.complete k c v).res = s.res := rfl
@[simp] theorem State.complete_olen (s : State) (k : ErrKind) (c : SubCause) (v : Word) : (s.complete k c v).olen = 0 := rfl
@[simp] theorem State.complete_din (s : State) (k : ErrKind) (c : SubCause) (v : Word) : (s.complete k c v).din = s.din := rfl
@[simp] theorem State.complete_dout (s : State) (k : ErrKind) (c : SubCause) (v : Word) : (s.complete k c v).dout = [] := rfl
@[simp] theorem State.complete_rxBytes (s : State) (k : ErrKind) (c : SubCause) (v : Word) : (s.complete k c v).rxBytes = s.rxBytes := rfl
@[simp] theorem State.complete_rxTerm (s : State) (k : ErrKind) (c : SubCause) (v : Word) : (s.complete k c v).rxTerm = s.rxTerm := rfl
@[simp] theorem State.complete_phase (s : State) (k : ErrKind) (c : SubCause) (v : Word) : (s.complete k c v).phase = .idle := rfl
@[simp] theorem State.complete_shl (s : State) (k : ErrKind) (c : SubCause) (v : Word) : (s.complete k c v).shl = s.shl := rfl
@[simp] theorem State.complete_blen (s : State) (k : ErrKind) (c : SubCause) (v : Word) : (s.complete k c v).blen = s.blen := rfl
@[simp] theorem State.complete_ltValid (s : State) (k : ErrKind) (c : SubCause) (v : Word) : (s.complete k c v).ltValid = s.ltValid := rfl
@[simp] theorem State.complete_ltN (s : State) (k : ErrKind) (c : SubCause) (v : Word) : (s.complete k c v).ltN = s.ltN := rfl
@[simp] theorem State.complete_ltSize (s : State) (k : ErrKind) (c : SubCause) (v : Word) : (s.complete k c v).ltSize = s.ltSize := rfl
@[simp] theorem State.complete_ltF (s : State) (k : ErrKind) (c : SubCause) (v : Word) : (s.complete k c v).ltF = s.ltF := rfl
@[simp] theorem State.complete_params (s : State) (k : ErrKind) (c : SubCause) (v : Word) : (s.complete k c v).params = s.params := rfl
@[simp] theorem State.complete_tx (s : State) (k : ErrKind) (c : SubCause) (v : Word) : (s.complete k c v).tx = s.tx := rfl
@[simp] theorem State.complete_hostQ (s : State) (k : ErrKind) (c : SubCause) (v : Word) : (s.complete k c v).hostQ = s.hostQ := rfl
@[simp] theorem State.complete_wireQ (s : State) (k : ErrKind) (c : SubCause) (v : Word) : (s.complete k c v).wireQ = s.wireQ := rfl
@[simp] theorem State.complete_sched (s : State) (k : ErrKind) (c : SubCause) (v : Word) : (s.complete k c v).sched = s.sched := rfl
@[simp] theorem State.complete_draws (s : State) (k : ErrKind) (c : SubCause) (v : Word) : (s.complete k c v).draws = s.draws := rfl

/-! ### `State.doneWith` -/

@[simp] theorem State.doneWith_op (s : State) (out : List Item) : (s.doneWith out).op = s.op := rfl
@[simp] theorem State.doneWith_dev (s : State) (out : List Item) : (s.doneWith out).dev = s.dev := rfl
@[simp] theorem State.doneWith_addr (s : State) (out : List Item) : (s.doneWith out).addr = s.addr := rfl
@[simp] theorem State.doneWith_count (s : State) (out : List Item) : (s.doneWith out).count = s.count := rfl
@[simp] theorem State.doneWith_len (s : State) (out : List Item) : (s.doneWith out).len = s.len := rfl
@[simp] theorem State.doneWith_busy (s : State) (out : List Item) : (s.doneWith out).busy = false := rfl
@[simp] theorem State.doneWith_status (s : State) (out : List Item) : (s.doneWith out).status = 0 := rfl
@[simp] theorem State.doneWith_res (s : State) (out : List Item) : (s.doneWith out).res = s.res := rfl
@[simp] theorem State.doneWith_olen (s : State) (out : List Item) : (s.doneWith out).olen = olenOf out.length := rfl
@[simp] theorem State.doneWith_din (s : State) (out : List Item) : (s.doneWith out).din = s.din := rfl
@[simp] theorem State.doneWith_dout (s : State) (out : List Item) : (s.doneWith out).dout = out := rfl
@[simp] theorem State.doneWith_rxBytes (s : State) (out : List Item) : (s.doneWith out).rxBytes = s.rxBytes := rfl
@[simp] theorem State.doneWith_rxTerm (s : State) (out : List Item) : (s.doneWith out).rxTerm = s.rxTerm := rfl
@[simp] theorem State.doneWith_phase (s : State) (out : List Item) : (s.doneWith out).phase = .idle := rfl
@[simp] theorem State.doneWith_shl (s : State) (out : List Item) : (s.doneWith out).shl = s.shl := rfl
@[simp] theorem State.doneWith_blen (s : State) (out : List Item) : (s.doneWith out).blen = s.blen := rfl
@[simp] theorem State.doneWith_ltValid (s : State) (out : List Item) : (s.doneWith out).ltValid = s.ltValid := rfl
@[simp] theorem State.doneWith_ltN (s : State) (out : List Item) : (s.doneWith out).ltN = s.ltN := rfl
@[simp] theorem State.doneWith_ltSize (s : State) (out : List Item) : (s.doneWith out).ltSize = s.ltSize := rfl
@[simp] theorem State.doneWith_ltF (s : State) (out : List Item) : (s.doneWith out).ltF = s.ltF := rfl
@[simp] theorem State.doneWith_params (s : State) (out : List Item) : (s.doneWith out).params = s.params := rfl
@[simp] theorem State.doneWith_tx (s : State) (out : List Item) : (s.doneWith out).tx = s.tx := rfl
@[simp] theorem State.doneWith_hostQ (s : State) (out : List Item) : (s.doneWith out).hostQ = s.hostQ := rfl
@[simp] theorem State.doneWith_wireQ (s : State) (out : List Item) : (s.doneWith out).wireQ = s.wireQ := rfl
@[simp] theorem State.doneWith_sched (s : State) (out : List Item) : (s.doneWith out).sched = s.sched := rfl
@[simp] theorem State.doneWith_draws (s : State) (out : List Item) : (s.doneWith out).draws = s.draws := rfl

/-! ### `State.finishRes` -/

@[simp] theorem State.finishRes_op (s : State) (v : Word) : (s.finishRes v).op = s.op := rfl
@[simp] theorem State.finishRes_dev (s : State) (v : Word) : (s.finishRes v).dev = s.dev := rfl
@[simp] theorem State.finishRes_addr (s : State) (v : Word) : (s.finishRes v).addr = s.addr := rfl
@[simp] theorem State.finishRes_count (s : State) (v : Word) : (s.finishRes v).count = s.count := rfl
@[simp] theorem State.finishRes_len (s : State) (v : Word) : (s.finishRes v).len = s.len := rfl
@[simp] theorem State.finishRes_busy (s : State) (v : Word) : (s.finishRes v).busy = false := rfl
@[simp] theorem State.finishRes_status (s : State) (v : Word) : (s.finishRes v).status = 0 := rfl
@[simp] theorem State.finishRes_res (s : State) (v : Word) : (s.finishRes v).res = v := rfl
@[simp] theorem State.finishRes_olen (s : State) (v : Word) : (s.finishRes v).olen = olenOf 0 := rfl
@[simp] theorem State.finishRes_din (s : State) (v : Word) : (s.finishRes v).din = s.din := rfl
@[simp] theorem State.finishRes_dout (s : State) (v : Word) : (s.finishRes v).dout = [] := rfl
@[simp] theorem State.finishRes_rxBytes (s : State) (v : Word) : (s.finishRes v).rxBytes = s.rxBytes := rfl
@[simp] theorem State.finishRes_rxTerm (s : State) (v : Word) : (s.finishRes v).rxTerm = s.rxTerm := rfl
@[simp] theorem State.finishRes_phase (s : State) (v : Word) : (s.finishRes v).phase = .idle := rfl
@[simp] theorem State.finishRes_shl (s : State) (v : Word) : (s.finishRes v).shl = s.shl := rfl
@[simp] theorem State.finishRes_blen (s : State) (v : Word) : (s.finishRes v).blen = s.blen := rfl
@[simp] theorem State.finishRes_ltValid (s : State) (v : Word) : (s.finishRes v).ltValid = s.ltValid := rfl
@[simp] theorem State.finishRes_ltN (s : State) (v : Word) : (s.finishRes v).ltN = s.ltN := rfl
@[simp] theorem State.finishRes_ltSize (s : State) (v : Word) : (s.finishRes v).ltSize = s.ltSize := rfl
@[simp] theorem State.finishRes_ltF (s : State) (v : Word) : (s.finishRes v).ltF = s.ltF := rfl
@[simp] theorem State.finishRes_params (s : State) (v : Word) : (s.finishRes v).params = s.params := rfl
@[simp] theorem State.finishRes_tx (s : State) (v : Word) : (s.finishRes v).tx = s.tx := rfl
@[simp] theorem State.finishRes_hostQ (s : State) (v : Word) : (s.finishRes v).hostQ = s.hostQ := rfl
@[simp] theorem State.finishRes_wireQ (s : State) (v : Word) : (s.finishRes v).wireQ = s.wireQ := rfl
@[simp] theorem State.finishRes_sched (s : State) (v : Word) : (s.finishRes v).sched = s.sched := rfl
@[simp] theorem State.finishRes_draws (s : State) (v : Word) : (s.finishRes v).draws = s.draws := rfl

/-! ### `State.loadOperands` -/

@[simp] theorem State.loadOperands_op (s : State) (o : Byte) (f : CwFields) : (s.loadOperands o f).op = o := rfl
@[simp] theorem State.loadOperands_dev (s : State) (o : Byte) (f : CwFields) : (s.loadOperands o f).dev = f.dev := rfl
@[simp] theorem State.loadOperands_addr (s : State) (o : Byte) (f : CwFields) : (s.loadOperands o f).addr = f.addr := rfl
@[simp] theorem State.loadOperands_count (s : State) (o : Byte) (f : CwFields) : (s.loadOperands o f).count = f.count := rfl
@[simp] theorem State.loadOperands_len (s : State) (o : Byte) (f : CwFields) : (s.loadOperands o f).len = f.len := rfl
@[simp] theorem State.loadOperands_busy (s : State) (o : Byte) (f : CwFields) : (s.loadOperands o f).busy = true := rfl
@[simp] theorem State.loadOperands_status (s : State) (o : Byte) (f : CwFields) : (s.loadOperands o f).status = s.status := rfl
@[simp] theorem State.loadOperands_res (s : State) (o : Byte) (f : CwFields) : (s.loadOperands o f).res = s.res := rfl
@[simp] theorem State.loadOperands_olen (s : State) (o : Byte) (f : CwFields) : (s.loadOperands o f).olen = s.olen := rfl
@[simp] theorem State.loadOperands_din (s : State) (o : Byte) (f : CwFields) : (s.loadOperands o f).din = s.din := rfl
@[simp] theorem State.loadOperands_dout (s : State) (o : Byte) (f : CwFields) : (s.loadOperands o f).dout = s.dout := rfl
@[simp] theorem State.loadOperands_rxBytes (s : State) (o : Byte) (f : CwFields) : (s.loadOperands o f).rxBytes = s.rxBytes := rfl
@[simp] theorem State.loadOperands_rxTerm (s : State) (o : Byte) (f : CwFields) : (s.loadOperands o f).rxTerm = s.rxTerm := rfl
@[simp] theorem State.loadOperands_phase (s : State) (o : Byte) (f : CwFields) : (s.loadOperands o f).phase = s.phase := rfl
@[simp] theorem State.loadOperands_shl (s : State) (o : Byte) (f : CwFields) : (s.loadOperands o f).shl = s.shl := rfl
@[simp] theorem State.loadOperands_blen (s : State) (o : Byte) (f : CwFields) : (s.loadOperands o f).blen = s.blen := rfl
@[simp] theorem State.loadOperands_ltValid (s : State) (o : Byte) (f : CwFields) : (s.loadOperands o f).ltValid = s.ltValid := rfl
@[simp] theorem State.loadOperands_ltN (s : State) (o : Byte) (f : CwFields) : (s.loadOperands o f).ltN = s.ltN := rfl
@[simp] theorem State.loadOperands_ltSize (s : State) (o : Byte) (f : CwFields) : (s.loadOperands o f).ltSize = s.ltSize := rfl
@[simp] theorem State.loadOperands_ltF (s : State) (o : Byte) (f : CwFields) : (s.loadOperands o f).ltF = s.ltF := rfl
@[simp] theorem State.loadOperands_params (s : State) (o : Byte) (f : CwFields) : (s.loadOperands o f).params = s.params := rfl
@[simp] theorem State.loadOperands_tx (s : State) (o : Byte) (f : CwFields) : (s.loadOperands o f).tx = s.tx := rfl
@[simp] theorem State.loadOperands_hostQ (s : State) (o : Byte) (f : CwFields) : (s.loadOperands o f).hostQ = s.hostQ := rfl
@[simp] theorem State.loadOperands_wireQ (s : State) (o : Byte) (f : CwFields) : (s.loadOperands o f).wireQ = s.wireQ := rfl
@[simp] theorem State.loadOperands_sched (s : State) (o : Byte) (f : CwFields) : (s.loadOperands o f).sched = s.sched := rfl
@[simp] theorem State.loadOperands_draws (s : State) (o : Byte) (f : CwFields) : (s.loadOperands o f).draws = s.draws := rfl

/-! ### `State.clearLayout` -/

@[simp] theorem State.clearLayout_op (s : State) : (s.clearLayout).op = s.op := rfl
@[simp] theorem State.clearLayout_dev (s : State) : (s.clearLayout).dev = s.dev := rfl
@[simp] theorem State.clearLayout_addr (s : State) : (s.clearLayout).addr = s.addr := rfl
@[simp] theorem State.clearLayout_count (s : State) : (s.clearLayout).count = s.count := rfl
@[simp] theorem State.clearLayout_len (s : State) : (s.clearLayout).len = s.len := rfl
@[simp] theorem State.clearLayout_busy (s : State) : (s.clearLayout).busy = s.busy := rfl
@[simp] theorem State.clearLayout_status (s : State) : (s.clearLayout).status = s.status := rfl
@[simp] theorem State.clearLayout_res (s : State) : (s.clearLayout).res = s.res := rfl
@[simp] theorem State.clearLayout_olen (s : State) : (s.clearLayout).olen = s.olen := rfl
@[simp] theorem State.clearLayout_din (s : State) : (s.clearLayout).din = s.din := rfl
@[simp] theorem State.clearLayout_dout (s : State) : (s.clearLayout).dout = s.dout := rfl
@[simp] theorem State.clearLayout_rxBytes (s : State) : (s.clearLayout).rxBytes = s.rxBytes := rfl
@[simp] theorem State.clearLayout_rxTerm (s : State) : (s.clearLayout).rxTerm = s.rxTerm := rfl
@[simp] theorem State.clearLayout_phase (s : State) : (s.clearLayout).phase = s.phase := rfl
@[simp] theorem State.clearLayout_shl (s : State) : (s.clearLayout).shl = s.shl := rfl
@[simp] theorem State.clearLayout_blen (s : State) : (s.clearLayout).blen = s.blen := rfl
@[simp] theorem State.clearLayout_ltValid (s : State) : (s.clearLayout).ltValid = false := rfl
@[simp] theorem State.clearLayout_ltN (s : State) : (s.clearLayout).ltN = 0 := rfl
@[simp] theorem State.clearLayout_ltSize (s : State) : (s.clearLayout).ltSize = 0 := rfl
@[simp] theorem State.clearLayout_ltF (s : State) : (s.clearLayout).ltF = [] := rfl
@[simp] theorem State.clearLayout_params (s : State) : (s.clearLayout).params = s.params := rfl
@[simp] theorem State.clearLayout_tx (s : State) : (s.clearLayout).tx = s.tx := rfl
@[simp] theorem State.clearLayout_hostQ (s : State) : (s.clearLayout).hostQ = s.hostQ := rfl
@[simp] theorem State.clearLayout_wireQ (s : State) : (s.clearLayout).wireQ = s.wireQ := rfl
@[simp] theorem State.clearLayout_sched (s : State) : (s.clearLayout).sched = s.sched := rfl
@[simp] theorem State.clearLayout_draws (s : State) : (s.clearLayout).draws = s.draws + 1 := rfl

/-! ### `State.setLayout` -/

@[simp] theorem State.setLayout_op (s : State) (es : List LtEntry) : (s.setLayout es).op = s.op := rfl
@[simp] theorem State.setLayout_dev (s : State) (es : List LtEntry) : (s.setLayout es).dev = s.dev := rfl
@[simp] theorem State.setLayout_addr (s : State) (es : List LtEntry) : (s.setLayout es).addr = s.addr := rfl
@[simp] theorem State.setLayout_count (s : State) (es : List LtEntry) : (s.setLayout es).count = s.count := rfl
@[simp] theorem State.setLayout_len (s : State) (es : List LtEntry) : (s.setLayout es).len = s.len := rfl
@[simp] theorem State.setLayout_busy (s : State) (es : List LtEntry) : (s.setLayout es).busy = s.busy := rfl
@[simp] theorem State.setLayout_status (s : State) (es : List LtEntry) : (s.setLayout es).status = s.status := rfl
@[simp] theorem State.setLayout_res (s : State) (es : List LtEntry) : (s.setLayout es).res = s.res := rfl
@[simp] theorem State.setLayout_olen (s : State) (es : List LtEntry) : (s.setLayout es).olen = s.olen := rfl
@[simp] theorem State.setLayout_din (s : State) (es : List LtEntry) : (s.setLayout es).din = s.din := rfl
@[simp] theorem State.setLayout_dout (s : State) (es : List LtEntry) : (s.setLayout es).dout = s.dout := rfl
@[simp] theorem State.setLayout_rxBytes (s : State) (es : List LtEntry) : (s.setLayout es).rxBytes = s.rxBytes := rfl
@[simp] theorem State.setLayout_rxTerm (s : State) (es : List LtEntry) : (s.setLayout es).rxTerm = s.rxTerm := rfl
@[simp] theorem State.setLayout_phase (s : State) (es : List LtEntry) : (s.setLayout es).phase = s.phase := rfl
@[simp] theorem State.setLayout_shl (s : State) (es : List LtEntry) : (s.setLayout es).shl = s.shl := rfl
@[simp] theorem State.setLayout_blen (s : State) (es : List LtEntry) : (s.setLayout es).blen = s.blen := rfl
@[simp] theorem State.setLayout_ltValid (s : State) (es : List LtEntry) : (s.setLayout es).ltValid = true := rfl
@[simp] theorem State.setLayout_ltN (s : State) (es : List LtEntry) : (s.setLayout es).ltN = es.length := rfl
@[simp] theorem State.setLayout_ltSize (s : State) (es : List LtEntry) : (s.setLayout es).ltSize = BitVec.ofNat 16 (layoutWords es) := rfl
@[simp] theorem State.setLayout_ltF (s : State) (es : List LtEntry) : (s.setLayout es).ltF = es := rfl
@[simp] theorem State.setLayout_params (s : State) (es : List LtEntry) : (s.setLayout es).params = s.params := rfl
@[simp] theorem State.setLayout_tx (s : State) (es : List LtEntry) : (s.setLayout es).tx = s.tx := rfl
@[simp] theorem State.setLayout_hostQ (s : State) (es : List LtEntry) : (s.setLayout es).hostQ = s.hostQ := rfl
@[simp] theorem State.setLayout_wireQ (s : State) (es : List LtEntry) : (s.setLayout es).wireQ = s.wireQ := rfl
@[simp] theorem State.setLayout_sched (s : State) (es : List LtEntry) : (s.setLayout es).sched = s.sched := rfl
@[simp] theorem State.setLayout_draws (s : State) (es : List LtEntry) : (s.setLayout es).draws = s.draws := rfl

/-! ### `State.send` -/

@[simp] theorem State.send_op (s : State) (bs : List Byte) : (s.send bs).op = s.op := rfl
@[simp] theorem State.send_dev (s : State) (bs : List Byte) : (s.send bs).dev = s.dev := rfl
@[simp] theorem State.send_addr (s : State) (bs : List Byte) : (s.send bs).addr = s.addr := rfl
@[simp] theorem State.send_count (s : State) (bs : List Byte) : (s.send bs).count = s.count := rfl
@[simp] theorem State.send_len (s : State) (bs : List Byte) : (s.send bs).len = s.len := rfl
@[simp] theorem State.send_busy (s : State) (bs : List Byte) : (s.send bs).busy = s.busy := rfl
@[simp] theorem State.send_status (s : State) (bs : List Byte) : (s.send bs).status = s.status := rfl
@[simp] theorem State.send_res (s : State) (bs : List Byte) : (s.send bs).res = s.res := rfl
@[simp] theorem State.send_olen (s : State) (bs : List Byte) : (s.send bs).olen = s.olen := rfl
@[simp] theorem State.send_din (s : State) (bs : List Byte) : (s.send bs).din = s.din := rfl
@[simp] theorem State.send_dout (s : State) (bs : List Byte) : (s.send bs).dout = s.dout := rfl
@[simp] theorem State.send_rxBytes (s : State) (bs : List Byte) : (s.send bs).rxBytes = s.rxBytes := rfl
@[simp] theorem State.send_rxTerm (s : State) (bs : List Byte) : (s.send bs).rxTerm = s.rxTerm := rfl
@[simp] theorem State.send_phase (s : State) (bs : List Byte) : (s.send bs).phase = s.phase := rfl
@[simp] theorem State.send_shl (s : State) (bs : List Byte) : (s.send bs).shl = s.shl := rfl
@[simp] theorem State.send_blen (s : State) (bs : List Byte) : (s.send bs).blen = s.blen := rfl
@[simp] theorem State.send_ltValid (s : State) (bs : List Byte) : (s.send bs).ltValid = s.ltValid := rfl
@[simp] theorem State.send_ltN (s : State) (bs : List Byte) : (s.send bs).ltN = s.ltN := rfl
@[simp] theorem State.send_ltSize (s : State) (bs : List Byte) : (s.send bs).ltSize = s.ltSize := rfl
@[simp] theorem State.send_ltF (s : State) (bs : List Byte) : (s.send bs).ltF = s.ltF := rfl
@[simp] theorem State.send_params (s : State) (bs : List Byte) : (s.send bs).params = s.params := rfl
@[simp] theorem State.send_tx (s : State) (bs : List Byte) : (s.send bs).tx = s.tx ++ bs := rfl
@[simp] theorem State.send_hostQ (s : State) (bs : List Byte) : (s.send bs).hostQ = s.hostQ := rfl
@[simp] theorem State.send_wireQ (s : State) (bs : List Byte) : (s.send bs).wireQ = s.wireQ := rfl
@[simp] theorem State.send_sched (s : State) (bs : List Byte) : (s.send bs).sched = s.sched := rfl
@[simp] theorem State.send_draws (s : State) (bs : List Byte) : (s.send bs).draws = s.draws := rfl

/-! ### `State.receive` -/

@[simp] theorem State.receive_op (s : State) (bs : List Byte) : (s.receive bs).op = s.op := rfl
@[simp] theorem State.receive_dev (s : State) (bs : List Byte) : (s.receive bs).dev = s.dev := rfl
@[simp] theorem State.receive_addr (s : State) (bs : List Byte) : (s.receive bs).addr = s.addr := rfl
@[simp] theorem State.receive_count (s : State) (bs : List Byte) : (s.receive bs).count = s.count := rfl
@[simp] theorem State.receive_len (s : State) (bs : List Byte) : (s.receive bs).len = s.len := rfl
@[simp] theorem State.receive_busy (s : State) (bs : List Byte) : (s.receive bs).busy = s.busy := rfl
@[simp] theorem State.receive_status (s : State) (bs : List Byte) : (s.receive bs).status = s.status := rfl
@[simp] theorem State.receive_res (s : State) (bs : List Byte) : (s.receive bs).res = s.res := rfl
@[simp] theorem State.receive_olen (s : State) (bs : List Byte) : (s.receive bs).olen = s.olen := rfl
@[simp] theorem State.receive_din (s : State) (bs : List Byte) : (s.receive bs).din = s.din := rfl
@[simp] theorem State.receive_dout (s : State) (bs : List Byte) : (s.receive bs).dout = s.dout := rfl
@[simp] theorem State.receive_rxBytes (s : State) (bs : List Byte) : (s.receive bs).rxBytes = s.rxBytes ++ bs := rfl
@[simp] theorem State.receive_rxTerm (s : State) (bs : List Byte) : (s.receive bs).rxTerm = s.rxTerm := rfl
@[simp] theorem State.receive_phase (s : State) (bs : List Byte) : (s.receive bs).phase = s.phase := rfl
@[simp] theorem State.receive_shl (s : State) (bs : List Byte) : (s.receive bs).shl = s.shl := rfl
@[simp] theorem State.receive_blen (s : State) (bs : List Byte) : (s.receive bs).blen = s.blen := rfl
@[simp] theorem State.receive_ltValid (s : State) (bs : List Byte) : (s.receive bs).ltValid = s.ltValid := rfl
@[simp] theorem State.receive_ltN (s : State) (bs : List Byte) : (s.receive bs).ltN = s.ltN := rfl
@[simp] theorem State.receive_ltSize (s : State) (bs : List Byte) : (s.receive bs).ltSize = s.ltSize := rfl
@[simp] theorem State.receive_ltF (s : State) (bs : List Byte) : (s.receive bs).ltF = s.ltF := rfl
@[simp] theorem State.receive_params (s : State) (bs : List Byte) : (s.receive bs).params = s.params := rfl
@[simp] theorem State.receive_tx (s : State) (bs : List Byte) : (s.receive bs).tx = s.tx := rfl
@[simp] theorem State.receive_hostQ (s : State) (bs : List Byte) : (s.receive bs).hostQ = s.hostQ := rfl
@[simp] theorem State.receive_wireQ (s : State) (bs : List Byte) : (s.receive bs).wireQ = s.wireQ := rfl
@[simp] theorem State.receive_sched (s : State) (bs : List Byte) : (s.receive bs).sched = s.sched := rfl
@[simp] theorem State.receive_draws (s : State) (bs : List Byte) : (s.receive bs).draws = s.draws := rfl

/-! ### `State.connected` -/

@[simp] theorem State.connected_op (s : State) : (s.connected).op = s.op := rfl
@[simp] theorem State.connected_dev (s : State) : (s.connected).dev = s.dev := rfl
@[simp] theorem State.connected_addr (s : State) : (s.connected).addr = s.addr := rfl
@[simp] theorem State.connected_count (s : State) : (s.connected).count = s.count := rfl
@[simp] theorem State.connected_len (s : State) : (s.connected).len = s.len := rfl
@[simp] theorem State.connected_busy (s : State) : (s.connected).busy = s.busy := rfl
@[simp] theorem State.connected_status (s : State) : (s.connected).status = s.status := rfl
@[simp] theorem State.connected_res (s : State) : (s.connected).res = s.res := rfl
@[simp] theorem State.connected_olen (s : State) : (s.connected).olen = s.olen := rfl
@[simp] theorem State.connected_din (s : State) : (s.connected).din = s.din := rfl
@[simp] theorem State.connected_dout (s : State) : (s.connected).dout = s.dout := rfl
@[simp] theorem State.connected_rxBytes (s : State) : (s.connected).rxBytes = [] := rfl
@[simp] theorem State.connected_rxTerm (s : State) : (s.connected).rxTerm = .stillOpen := rfl
@[simp] theorem State.connected_phase (s : State) : (s.connected).phase = s.phase := rfl
@[simp] theorem State.connected_shl (s : State) : (s.connected).shl = s.shl := rfl
@[simp] theorem State.connected_blen (s : State) : (s.connected).blen = s.blen := rfl
@[simp] theorem State.connected_ltValid (s : State) : (s.connected).ltValid = s.ltValid := rfl
@[simp] theorem State.connected_ltN (s : State) : (s.connected).ltN = s.ltN := rfl
@[simp] theorem State.connected_ltSize (s : State) : (s.connected).ltSize = s.ltSize := rfl
@[simp] theorem State.connected_ltF (s : State) : (s.connected).ltF = s.ltF := rfl
@[simp] theorem State.connected_params (s : State) : (s.connected).params = s.params := rfl
@[simp] theorem State.connected_tx (s : State) : (s.connected).tx = s.tx := rfl
@[simp] theorem State.connected_hostQ (s : State) : (s.connected).hostQ = s.hostQ := rfl
@[simp] theorem State.connected_wireQ (s : State) : (s.connected).wireQ = s.wireQ := rfl
@[simp] theorem State.connected_sched (s : State) : (s.connected).sched = s.sched := rfl
@[simp] theorem State.connected_draws (s : State) : (s.connected).draws = s.draws := rfl

/-! ### `State.disconnected` -/

@[simp] theorem State.disconnected_op (s : State) : (s.disconnected).op = s.op := rfl
@[simp] theorem State.disconnected_dev (s : State) : (s.disconnected).dev = s.dev := rfl
@[simp] theorem State.disconnected_addr (s : State) : (s.disconnected).addr = s.addr := rfl
@[simp] theorem State.disconnected_count (s : State) : (s.disconnected).count = s.count := rfl
@[simp] theorem State.disconnected_len (s : State) : (s.disconnected).len = s.len := rfl
@[simp] theorem State.disconnected_busy (s : State) : (s.disconnected).busy = s.busy := rfl
@[simp] theorem State.disconnected_status (s : State) : (s.disconnected).status = s.status := rfl
@[simp] theorem State.disconnected_res (s : State) : (s.disconnected).res = s.res := rfl
@[simp] theorem State.disconnected_olen (s : State) : (s.disconnected).olen = s.olen := rfl
@[simp] theorem State.disconnected_din (s : State) : (s.disconnected).din = s.din := rfl
@[simp] theorem State.disconnected_dout (s : State) : (s.disconnected).dout = s.dout := rfl
@[simp] theorem State.disconnected_rxBytes (s : State) : (s.disconnected).rxBytes = s.rxBytes := rfl
@[simp] theorem State.disconnected_rxTerm (s : State) : (s.disconnected).rxTerm = if s.rxTerm = .stillOpen then .eof else s.rxTerm := rfl
@[simp] theorem State.disconnected_phase (s : State) : (s.disconnected).phase = s.phase := rfl
@[simp] theorem State.disconnected_shl (s : State) : (s.disconnected).shl = s.shl := rfl
@[simp] theorem State.disconnected_blen (s : State) : (s.disconnected).blen = s.blen := rfl
@[simp] theorem State.disconnected_ltValid (s : State) : (s.disconnected).ltValid = s.ltValid := rfl
@[simp] theorem State.disconnected_ltN (s : State) : (s.disconnected).ltN = s.ltN := rfl
@[simp] theorem State.disconnected_ltSize (s : State) : (s.disconnected).ltSize = s.ltSize := rfl
@[simp] theorem State.disconnected_ltF (s : State) : (s.disconnected).ltF = s.ltF := rfl
@[simp] theorem State.disconnected_params (s : State) : (s.disconnected).params = s.params := rfl
@[simp] theorem State.disconnected_tx (s : State) : (s.disconnected).tx = s.tx := rfl
@[simp] theorem State.disconnected_hostQ (s : State) : (s.disconnected).hostQ = s.hostQ := rfl
@[simp] theorem State.disconnected_wireQ (s : State) : (s.disconnected).wireQ = s.wireQ := rfl
@[simp] theorem State.disconnected_sched (s : State) : (s.disconnected).sched = s.sched := rfl
@[simp] theorem State.disconnected_draws (s : State) : (s.disconnected).draws = s.draws := rfl

/-! ### `State.resetBlock` -/

@[simp] theorem State.resetBlock_op (s : State) : (s.resetBlock).op = Config.freeByte s.draws 0 := rfl
@[simp] theorem State.resetBlock_dev (s : State) : (s.resetBlock).dev = Config.freeByte s.draws 1 := rfl
@[simp] theorem State.resetBlock_addr (s : State) : (s.resetBlock).addr = Config.freeWord s.draws 0 := rfl
@[simp] theorem State.resetBlock_count (s : State) : (s.resetBlock).count = Config.freeWord s.draws 1 := rfl
@[simp] theorem State.resetBlock_len (s : State) : (s.resetBlock).len = Config.freeWord s.draws 2 := rfl
@[simp] theorem State.resetBlock_busy (s : State) : (s.resetBlock).busy = false := rfl
@[simp] theorem State.resetBlock_status (s : State) : (s.resetBlock).status = 0 := rfl
@[simp] theorem State.resetBlock_res (s : State) : (s.resetBlock).res = 0 := rfl
@[simp] theorem State.resetBlock_olen (s : State) : (s.resetBlock).olen = 0 := rfl
@[simp] theorem State.resetBlock_din (s : State) : (s.resetBlock).din = [] := rfl
@[simp] theorem State.resetBlock_dout (s : State) : (s.resetBlock).dout = [] := rfl
@[simp] theorem State.resetBlock_rxBytes (s : State) : (s.resetBlock).rxBytes = s.rxBytes := rfl
@[simp] theorem State.resetBlock_rxTerm (s : State) : (s.resetBlock).rxTerm = s.rxTerm := rfl
@[simp] theorem State.resetBlock_phase (s : State) : (s.resetBlock).phase = .idle := rfl
@[simp] theorem State.resetBlock_shl (s : State) : (s.resetBlock).shl = Config.freeNibble s.draws 0 := rfl
@[simp] theorem State.resetBlock_blen (s : State) : (s.resetBlock).blen = Config.freeWord s.draws 3 := rfl
@[simp] theorem State.resetBlock_ltValid (s : State) : (s.resetBlock).ltValid = false := rfl
@[simp] theorem State.resetBlock_ltN (s : State) : (s.resetBlock).ltN = 0 := rfl
@[simp] theorem State.resetBlock_ltSize (s : State) : (s.resetBlock).ltSize = 0 := rfl
@[simp] theorem State.resetBlock_ltF (s : State) : (s.resetBlock).ltF = [] := rfl
@[simp] theorem State.resetBlock_params (s : State) : (s.resetBlock).params = s.params := rfl
@[simp] theorem State.resetBlock_tx (s : State) : (s.resetBlock).tx = s.tx := rfl
@[simp] theorem State.resetBlock_hostQ (s : State) : (s.resetBlock).hostQ = s.hostQ := rfl
@[simp] theorem State.resetBlock_wireQ (s : State) : (s.resetBlock).wireQ = s.wireQ := rfl
@[simp] theorem State.resetBlock_sched (s : State) : (s.resetBlock).sched = s.sched := rfl
@[simp] theorem State.resetBlock_draws (s : State) : (s.resetBlock).draws = s.draws + 1 := rfl

end Sys2Proof.Machine
end

