-- ==== Sys2Proof/Laws/Ops.lean ====
section
/-! SUPPORT. What each shared operation can do, said once: the equation where it goes on, and one inversion lemma
"if it answers next t, then …". -/

namespace Sys2Proof.Machine

/-! ### Issue and its checks -/

theorem issue_ready {op : Byte} {f : CwFields} {s : State} {k : State → Out}
    (hb : s.busy = false) (hd : s.overCapacity s.din.length = false) :
    issue op f s k = k (s.loadOperands op f) := by
  simp [issue, hb, hd]

theorem issue_busy {op : Byte} {f : CwFields} {s : State} {k : State → Out} (hb : s.busy = true) :
    issue op f s k = .refused .commandPortBusy := by
  simp [issue, hb]

theorem issue_next {op : Byte} {f : CwFields} {s t : State} {k : State → Out} (h : issue op f s k = .next t) :
    s.busy = false ∧ s.overCapacity s.din.length = false ∧ k (s.loadOperands op f) = .next t := by
  unfold issue at h
  split at h
  · cases h
  · split at h
    · cases h
    · simp_all

theorem issue_fault {op : Byte} {f : CwFields} {s : State} {k : State → Out} {r : Fault}
    (h : issue op f s k = .fault r) : k (s.loadOperands op f) = .fault r := by
  unfold issue at h
  split at h
  · cases h
  · split at h
    · cases h
    · exact h

theorem withDin_some {α : Type} {as? : Item → Option α} {s : State} {k : List α → Out} {xs : List α}
    (h : itemsAs as? s.din = some xs) : withDin as? s k = k xs := by
  simp [withDin, h]

theorem withDin_next {α : Type} {as? : Item → Option α} {s t : State} {k : List α → Out}
    (h : withDin as? s k = .next t) : ∃ xs, itemsAs as? s.din = some xs ∧ k xs = .next t := by
  unfold withDin at h
  split at h
  · exact ⟨_, ‹_›, h⟩
  · cases h

theorem withDin_fault {α : Type} {as? : Item → Option α} {s : State} {k : List α → Out} {r : Fault}
    (h : withDin as? s k = .fault r) : ∃ xs, itemsAs as? s.din = some xs ∧ k xs = .fault r := by
  unfold withDin at h
  split at h
  · exact ⟨_, ‹_›, h⟩
  · cases h

theorem withDevice_some {s : State} {k : DevRow → Out} {row : DevRow} (h : s.device s.dev = some row) :
    withDevice s k = k row := by
  simp [withDevice, h]

theorem withDevice_none {s : State} {k : DevRow → Out} (h : s.device s.dev = none) :
    withDevice s k = .next (s.complete .unknownDevice .none 0) := by
  simp [withDevice, h]

theorem withDevice_next {s t : State} {k : DevRow → Out} (h : withDevice s k = .next t) :
    (∃ row, s.device s.dev = some row ∧ k row = .next t) ∨
      (s.device s.dev = none ∧ t = s.complete .unknownDevice .none 0) := by
  unfold withDevice at h
  split at h
  · exact .inl ⟨_, ‹_›, h⟩
  · cases h
    exact .inr ⟨‹_›, rfl⟩

theorem withDevice_fault {s : State} {k : DevRow → Out} {r : Fault} (h : withDevice s k = .fault r) :
    ∃ row, s.device s.dev = some row ∧ k row = .fault r := by
  unfold withDevice at h
  split at h
  · exact ⟨_, ‹_›, h⟩
  · cases h

theorem withLayout_next {s t : State} {k : Out} (h : withLayout s k = .next t) :
    (s.ltValid = true ∧ k = .next t) ∨ (s.ltValid = false ∧ t = s.complete .shapeError .noLayout 0) := by
  unfold withLayout at h
  split at h
  · exact .inl ⟨‹_›, h⟩
  · cases h
    exact .inr ⟨by simp_all, rfl⟩

theorem withLayout_fault {s : State} {k : Out} {r : Fault} (h : withLayout s k = .fault r) : k = .fault r := by
  unfold withLayout at h
  split at h
  · exact h
  · cases h

/-! ### Completion -/

theorem finish_fits {s : State} {out : List Item} (h : s.overCapacity out.length = false) :
    s.finish out = s.doneWith out := by
  simp [State.finish, h]

theorem finish_cases (s : State) (out : List Item) :
    (s.overCapacity out.length = false ∧ s.finish out = s.doneWith out) ∨
      (s.overCapacity out.length = true ∧ s.finish out = s.complete .capacity .itemLimit 0) := by
  unfold State.finish
  split <;> simp_all

theorem olenOf_small {n : Nat} (h : n < 2 ^ 32) : olenOf n = BitVec.ofNat 32 n := by
  unfold olenOf
  rw [if_pos h]

@[simp] theorem olenOf_zero : olenOf 0 = 0 := rfl

theorem overCapacity_mono {s : State} {m n : Nat} (hmn : m ≤ n) (h : s.overCapacity n = false) :
    s.overCapacity m = false := by
  unfold State.overCapacity at *
  split at h <;> simp_all
  omega

theorem overCapacity_params {s t : State} (h : t.params = s.params) (n : Nat) :
    t.overCapacity n = s.overCapacity n := by
  simp [State.overCapacity, h]

theorem device_params {s t : State} (h : t.params = s.params) (d : Byte) : t.device d = s.device d := by
  simp [State.device, h]

/-- The device check of an issued operation looks its own `DEV` field up. -/
theorem loadOperands_device (s : State) (o : Byte) (f : CwFields) :
    (s.loadOperands o f).device (s.loadOperands o f).dev = s.params.devtab[f.dev.toNat]? := rfl

theorem loadOperands_overCapacity (s : State) (o : Byte) (f : CwFields) (n : Nat) :
    (s.loadOperands o f).overCapacity n = s.overCapacity n := rfl

/-! ### The status word -/

/-- The fields of a packed status word read back (spec/10_state.md R25). -/
theorem packStatus_fields (e c : BitVec 4) (v : Word) :
    (packStatus e c v).extractLsb' 0 4 = e ∧ (packStatus e c v).extractLsb' 4 4 = c ∧
      (packStatus e c v).extractLsb' 8 16 = v := by
  refine ⟨?_, ?_, ?_⟩
  · ext i hi
    interval_cases i <;> simp [packStatus]
  · ext i hi
    interval_cases i <;> simp [packStatus]
  · ext i hi
    interval_cases i <;> simp [packStatus]

/-! ### The transport pull -/

/-- Everything a pull can do. -/
theorem rxReadExact_cases (n : Nat) (s : State) :
    (n ≤ s.rxBytes.length ∧
        rxReadExact n s = (.bytes (s.rxBytes.take n), { s with rxBytes := s.rxBytes.drop n })) ∨
      (s.rxBytes.length < n ∧ s.rxTerm = .eof ∧ rxReadExact n s = (.eof, { s with rxBytes := [] })) ∨
      (s.rxBytes.length < n ∧ s.rxTerm = .ioError ∧ rxReadExact n s = (.ioError, { s with rxBytes := [] })) ∨
      (s.rxBytes.length < n ∧ s.rxTerm = .stillOpen ∧ rxReadExact n s = (.wait, s)) := by
  unfold rxReadExact
  split
  · exact .inl ⟨‹_›, rfl⟩
  · have hlt : s.rxBytes.length < n := by omega
    cases ht : s.rxTerm <;> simp [hlt]

/-- Everything a continuation step can do with its pull: it runs on the bytes, or it ends the operation with
TransportIo. -/
theorem pullThen_some {n : Nat} {s t : State} {k : List Byte → State → State}
    (h : pullThen (rxReadExact n s) k = some t) :
    (n ≤ s.rxBytes.length ∧ t = k (s.rxBytes.take n) { s with rxBytes := s.rxBytes.drop n }) ∨
      (s.rxBytes.length < n ∧ ∃ c, (c = .eof ∨ c = .ioError) ∧
        t = { s with rxBytes := [] }.complete .transportIo c 0) := by
  rcases rxReadExact_cases n s with ⟨hn, he⟩ | ⟨hn, ht, he⟩ | ⟨hn, ht, he⟩ | ⟨hn, ht, he⟩ <;>
    simp only [he, pullThen, Option.some.injEq, reduceCtorEq] at h
  · exact .inl ⟨hn, h.symm⟩
  · exact .inr ⟨hn, .eof, .inl rfl, h.symm⟩
  · exact .inr ⟨hn, .ioError, .inr rfl, h.symm⟩

/-! ### `DIN` items -/

theorem itemsAs_map {α : Type} {as? : Item → Option α} {mk : α → Item} (h : ∀ a, as? (mk a) = some a)
    (xs : List α) : itemsAs as? (xs.map mk) = some xs := by
  induction xs with
  | nil => rfl
  | cons x xs ih => simp [itemsAs, h, ih]

@[simp] theorem itemsAs_bools (xs : List Bool) : itemsAs Item.bool? (xs.map .bool) = some xs :=
  itemsAs_map (mk := .bool) (fun _ => rfl) xs

@[simp] theorem itemsAs_bytes (xs : List Byte) : itemsAs Item.byte? (xs.map .byte) = some xs :=
  itemsAs_map (mk := .byte) (fun _ => rfl) xs

@[simp] theorem itemsAs_words (xs : List Word) : itemsAs Item.word? (xs.map .word) = some xs :=
  itemsAs_map (mk := .word) (fun _ => rfl) xs

@[simp] theorem itemsAs_chars (xs : List Byte) : itemsAs Item.char? (xs.map .char) = some xs :=
  itemsAs_map (mk := .char) (fun _ => rfl) xs

@[simp] theorem itemsAs_descs (xs : List Descriptor) : itemsAs Item.desc? (xs.map .desc) = some xs :=
  itemsAs_map (mk := .desc) (fun _ => rfl) xs

/-- Field values are items as they are, each in the range of its type. -/
theorem itemsAs_vals (xs : List FieldVal) (h : ∀ v ∈ xs, v.inRange = true) :
    itemsAs Item.val? (xs.map .val) = some xs := by
  induction xs with
  | nil => rfl
  | cons x xs ih =>
    have hx : Item.val? (.val x) = some x := by simp [Item.val?, h x (by simp)]
    simp [itemsAs, hx, ih fun v hv => h v (by simp [hv])]

/-- What `DIN` held, read back from its items as field values. -/
theorem itemsAs_vals_some {xs : List Item} {vs : List FieldVal} (h : itemsAs Item.val? xs = some vs) :
    xs = vs.map .val ∧ ∀ v ∈ vs, v.inRange = true := by
  induction xs generalizing vs with
  | nil => simp_all [itemsAs]
  | cons x xs ih =>
    simp only [itemsAs] at h
    split at h
    · next a as ha has =>
      obtain ⟨h1, h2⟩ := ih has
      cases h
      cases x <;> simp [Item.val?] at ha
      obtain ⟨hr, rfl⟩ := ha
      exact ⟨by simp [h1], by simpa [hr] using h2⟩
    · cases h

end Sys2Proof.Machine
end

