-- ==== Sys2Proof/Laws/Codec.lean ====
section
/-! SUPPORT. What the byte-order helpers do, said once: a word and its two bytes, a double word and its two words,
and a signed number and its bits (spec/00_scope.md R13). -/

namespace Sys2Proof.Machine

/-! ### Words and bytes -/

theorem un16_toNat (l h : Byte) : (un16 l h).toNat = h.toNat * 256 + l.toNat := by
  have hl := l.isLt
  have hh := h.isLt
  unfold un16
  rw [BitVec.toNat_or, BitVec.toNat_shiftLeft, BitVec.toNat_setWidth, BitVec.toNat_setWidth]
  rw [Nat.mod_eq_of_lt (a := h.toNat) (by omega), Nat.mod_eq_of_lt (a := l.toNat) (by omega), Nat.shiftLeft_eq,
    Nat.mod_eq_of_lt (by omega), Nat.mul_comm, Nat.two_pow_add_eq_or_of_lt hl, Nat.mul_comm]

theorem lowByte_toNat (w : Word) : (w.extractLsb' 0 8).toNat = w.toNat % 256 := by
  simp [BitVec.extractLsb'_toNat]

theorem highByte_toNat (w : Word) : (w.extractLsb' 8 8).toNat = w.toNat / 256 := by
  have := w.isLt
  rw [BitVec.extractLsb'_toNat, Nat.shiftRight_eq_div_pow]
  omega

/-- A word is made of its two bytes again. -/
theorem un16_le16 (w : Word) : un16 (w.extractLsb' 0 8) (w.extractLsb' 8 8) = w := by
  apply BitVec.eq_of_toNat_eq
  rw [un16_toNat, lowByte_toNat, highByte_toNat]
  omega

/-- The bytes of a word made of two bytes are those two. -/
theorem le16_un16 (l h : Byte) : le16 (un16 l h) = [l, h] := by
  have hl := l.isLt
  have hh := h.isLt
  have e0 : (un16 l h).extractLsb' 0 8 = l := by
    apply BitVec.eq_of_toNat_eq
    rw [lowByte_toNat, un16_toNat]
    omega
  have e1 : (un16 l h).extractLsb' 8 8 = h := by
    apply BitVec.eq_of_toNat_eq
    rw [highByte_toNat, un16_toNat]
    omega
  rw [le16, e0, e1]

/-! ### Double words and words -/

theorem un32_toNat (w0 w1 : Word) : (un32 w0 w1).toNat = w1.toNat * 65536 + w0.toNat := by
  have h0 := w0.isLt
  have h1 := w1.isLt
  unfold un32
  rw [BitVec.toNat_or, BitVec.toNat_shiftLeft, BitVec.toNat_setWidth, BitVec.toNat_setWidth]
  rw [Nat.mod_eq_of_lt (a := w1.toNat) (by omega), Nat.mod_eq_of_lt (a := w0.toNat) (by omega), Nat.shiftLeft_eq,
    Nat.mod_eq_of_lt (by omega), Nat.mul_comm, Nat.two_pow_add_eq_or_of_lt h0, Nat.mul_comm]

theorem lowWord_toNat (d : DWord) : (d.extractLsb' 0 16).toNat = d.toNat % 65536 := by
  simp [BitVec.extractLsb'_toNat]

theorem highWord_toNat (d : DWord) : (d.extractLsb' 16 16).toNat = d.toNat / 65536 := by
  have := d.isLt
  rw [BitVec.extractLsb'_toNat, Nat.shiftRight_eq_div_pow]
  omega

/-- The words of a double word made of two words are those two. -/
theorem words32_un32 (w0 w1 : Word) : words32 (un32 w0 w1) = [w0, w1] := by
  have h0 := w0.isLt
  have h1 := w1.isLt
  have e0 : (un32 w0 w1).extractLsb' 0 16 = w0 := by
    apply BitVec.eq_of_toNat_eq
    rw [lowWord_toNat, un32_toNat]
    omega
  have e1 : (un32 w0 w1).extractLsb' 16 16 = w1 := by
    apply BitVec.eq_of_toNat_eq
    rw [highWord_toNat, un32_toNat]
    omega
  rw [words32, e0, e1]

/-- A double word is made of its two words again. -/
theorem un32_words32 (d : DWord) : un32 (d.extractLsb' 0 16) (d.extractLsb' 16 16) = d := by
  apply BitVec.eq_of_toNat_eq
  rw [un32_toNat, lowWord_toNat, highWord_toNat]
  omega

/-! ### Signed numbers -/

theorem sext16_eq_toInt (w : Word) : sext16 w = w.toInt := by
  unfold sext16
  rw [BitVec.toInt_eq_toNat_cond]
  split <;> split <;> omega

theorem sext32_eq_toInt (d : DWord) : sext32 d = d.toInt := by
  unfold sext32
  rw [BitVec.toInt_eq_toNat_cond]
  split <;> split <;> omega

theorem sext16_trunc16 {v : Int} (h : -32768 ≤ v ∧ v < 32768) : sext16 (trunc16 v) = v := by
  rw [sext16_eq_toInt, trunc16, BitVec.toInt_ofInt]
  exact Int.bmod_eq_of_le (by omega) (by omega)

theorem sext32_trunc32 {v : Int} (h : -2147483648 ≤ v ∧ v < 2147483648) : sext32 (trunc32 v) = v := by
  rw [sext32_eq_toInt, trunc32, BitVec.toInt_ofInt]
  exact Int.bmod_eq_of_le (by omega) (by omega)

theorem trunc16_sext16 (w : Word) : trunc16 (sext16 w) = w := by
  rw [sext16_eq_toInt, trunc16, BitVec.ofInt_toInt]

theorem trunc32_sext32 (d : DWord) : trunc32 (sext32 d) = d := by
  rw [sext32_eq_toInt, trunc32, BitVec.ofInt_toInt]

/-! ### The codecs' basic walks -/

theorem unpackChars_eq_wordEncode (ws : List Word) : unpackChars ws = wordEncode ws := rfl

theorem wordEncode_nil : wordEncode [] = [] := rfl

theorem wordEncode_cons (w : Word) (ws : List Word) :
    wordEncode (w :: ws) = w.extractLsb' 0 8 :: w.extractLsb' 8 8 :: wordEncode ws := rfl

theorem wordEncode_length (ws : List Word) : (wordEncode ws).length = 2 * ws.length := by
  induction ws with
  | nil => rfl
  | cons w ws ih =>
    rw [wordEncode_cons, List.length_cons, List.length_cons, ih, List.length_cons]
    omega

theorem strWords_eq (n : Nat) : strWords n = n / 2 + 1 := by
  unfold strWords strPad
  omega

end Sys2Proof.Machine
end

