-- ==== Sys2Proof/Laws/Decode.lean ====
section
/-! SUPPORT. What the fields of a code are, said once for command words and once for each kind of frame
(spec/30_encoding.md R91, R95, R100). -/

namespace Sys2Proof

open Machine

/-! ### Command words -/

theorem cwOp_encodeCw (op : Byte) (f : CwFields) : cwOp (encodeCw op f) = op := by
  ext i hi
  interval_cases i <;> simp [cwOp, encodeCw]

theorem cwFields_encodeCw (op : Byte) (f : CwFields) : cwFields (encodeCw op f) = f := by
  obtain ⟨d, a, c, l⟩ := f
  simp only [cwFields, CwFields.mk.injEq]
  refine ⟨?_, ?_, ?_, ?_⟩ <;> ext i hi <;> interval_cases i <;> simp [encodeCw]

theorem encodeCw_fields (cw : CmdWord) : encodeCw (cwOp cw) (cwFields cw) = cw := by
  apply BitVec.eq_of_getLsbD_eq
  intro i hi
  simp only [cwOp, cwFields, encodeCw, BitVec.getLsbD_or, BitVec.getLsbD_shiftLeft, BitVec.getLsbD_setWidth,
    BitVec.getLsbD_extractLsb', hi, decide_true, Bool.true_and]
  rcases (by omega : i < 8 ∨ (8 ≤ i ∧ i < 16) ∨ (16 ≤ i ∧ i < 32) ∨ (32 ≤ i ∧ i < 48) ∨ 48 ≤ i) with
    h | ⟨h, h'⟩ | ⟨h, h'⟩ | ⟨h, h'⟩ | h
  · simp [h, show i < 16 by omega, show i < 32 by omega, show i < 48 by omega]
  · simp [show ¬ i < 8 by omega, h', show i - 8 < 8 by omega, show i - 8 < 64 by omega, show 8 + (i - 8) = i by omega,
      show i < 32 by omega, show i < 48 by omega]
  · simp [show ¬ i < 8 by omega, h', show ¬ i < 16 by omega, show ¬ i - 8 < 8 by omega, show i - 16 < 16 by omega,
      show i - 16 < 64 by omega, show 16 + (i - 16) = i by omega, show i < 48 by omega]
  · simp [show ¬ i < 8 by omega, h', show ¬ i < 16 by omega, show ¬ i - 8 < 8 by omega, show ¬ i - 16 < 16 by omega,
      show ¬ i < 32 by omega, show i - 32 < 16 by omega, show i - 32 < 64 by omega, show 32 + (i - 32) = i by omega]
  · simp [show ¬ i < 8 by omega, show ¬ i < 16 by omega, show ¬ i - 8 < 8 by omega, show ¬ i - 16 < 16 by omega,
      show ¬ i < 32 by omega, show ¬ i - 32 < 16 by omega, show ¬ i < 48 by omega, show i - 48 < 16 by omega,
      show i - 48 < 64 by omega, show 48 + (i - 48) = i by omega]

/-! ### Frames -/

theorem encodeDevice_length (addr : Word) (code : Byte) (count : Word) :
    (encodeDevice addr code count).length = 6 := rfl

theorem encodeRequest_length (cmd sub : Word) (data : List Byte) :
    (encodeRequest cmd sub data).length = 15 + data.length := by
  simp only [encodeRequest, Config.hdr, le16, List.length_append, List.length_cons, List.length_nil]

theorem encodeResponse_length (disc : Byte) (routing body : List Byte) :
    (encodeResponse disc routing body).length = 3 + routing.length + body.length := by
  simp only [encodeResponse, le16, List.length_append, List.length_cons, List.length_nil]
  omega

/-- The 16-bit length field counts a body that fits it. -/
theorem lengthField_counts {n : Nat} (h : n ≤ 65535) :
    (un16 ((BitVec.ofNat 16 n).extractLsb' 0 8) ((BitVec.ofNat 16 n).extractLsb' 8 8)).toNat = n := by
  rw [un16_le16, BitVec.toNat_ofNat]
  omega

/-- The frame encoder's frame is the wire format's, wherever it is defined (spec/41_frame_encoder.md R150). -/
theorem req_eq_encodeRequest {cmd sub : Word} {data : List Byte} (h : 6 + data.length ≤ 0xFFFF) :
    req cmd sub data = some (encodeRequest cmd sub data) := by
  rw [req, if_pos h]
  rfl

end Sys2Proof
end

