-- ==== Sys2Proof/Laws/HostSequences.lean ====
section
/-! SUPPORT. What the parts of a host sequence can do, said once: an issue that succeeds, the two checks of the guard,
and which errors the never-throwing sequence still answers. -/

namespace Sys2Proof.Machine

variable {α β : Type}

@[simp] theorem andThen_ok (a : α) (s : State) (k : α → State → HostResult β) : andThen (s, .ok a) k = k a s := rfl

@[simp] theorem andThen_error (e : HostError) (s : State) (k : α → State → HostResult β) :
    andThen (s, .error e) k = (s, .error e) := rfl

/-- An operation that completes with success hands its state to the rest of the sequence. -/
theorem hostIssue_success {i : Instr} {din : List Item} {s t : State} (h : exec i { s with din := din } = .next t)
    (ht : t.status = 0) : hostIssue i din s = (t, .ok ()) := by
  unfold hostIssue completed
  rw [h]
  exact if_pos (by rw [State.err, ht]; rfl)

/-- The first check of the guard: without a connection nothing happens. -/
theorem guard_not_connected {c : Conn} (h : c ≠ .connected) (d : Byte) (want : DevKind) (s : State) :
    guard c d want s = (s, .error .notConnected) := if_neg h

/-- The second check of the guard: a device of the table passes exactly when its kind is the wanted one, and `DT.KIND`
is all that was done. -/
theorem guard_connected {d : Byte} {want : DevKind} {row : DevRow} {s : State} (hb : s.busy = false)
    (hm : s.params.maxItems = none) (hr : s.params.devtab[d.toNat]? = some row) :
    guard .connected d want s =
      ((({ s with din := [] } : State).loadOperands 0x10 (fields d 0 0 0)).finishRes (kindNumber row.kind),
        if row.kind = want then .ok () else .error .deviceKindMismatch) := by
  have hx : exec (.dtKind (fields d 0 0 0)) { s with din := [] } =
      .next ((({ s with din := [] } : State).loadOperands 0x10 (fields d 0 0 0)).finishRes (kindNumber row.kind)) := by
    rw [exec, execDtKind, issue_ready (by exact hb) (by simp [State.overCapacity, hm]), withDevice_some (by exact hr)]
  rw [guard, if_pos rfl, hostIssue_success hx rfl, andThen_ok]
  obtain ⟨code, kind⟩ := row
  cases kind <;> cases want <;> rfl

/-- A swallowed result is an error only where the sequence has no result. -/
theorem swallow_error {fallback : α} {r : HostResult α} {e : HostError} (h : (swallow fallback r).2 = .error e) :
    e.raised = false ∧ r.2 = .error e := by
  obtain ⟨s, a | e'⟩ := r
  · simp only [swallow] at h
    split at h
    · cases h
    · rename_i hr
      cases h
      exact ⟨Bool.eq_false_iff.mpr hr, rfl⟩
  · cases h

/-- `selfTest` never throws: what it answers besides a boolean is that it has no result (spec/46_host_sequences.md
R270). -/
theorem selfTest_never_throws {c : Conn} {x : Exchange} {s : State} {e : HostError}
    (h : (selfTest c x s).2 = .error e) : e = .waiting ∨ e = .noStep := by
  have hr := (swallow_error h).1
  cases e <;> simp_all [HostError.raised]

/-- `selfTest` without a connection is `false` and does nothing. -/
theorem selfTest_not_connected {c : Conn} (h : c ≠ .connected) (x : Exchange) (s : State) :
    selfTest c x s = (s, .ok false) := by
  rw [selfTest, if_neg h]
  rfl

end Sys2Proof.Machine
end

