-- ==== Sys2Proof/Laws/PerInstr.lean ====
section
/-! SUPPORT. The family RowMatch: the code of every instruction matches its row of spec/opcode_table.json, match
and mask as the table writes them (a command word as a number; the leading bytes of a frame). -/

namespace Sys2Proof.Laws.RowMatch

/-- A command word agrees with `match` under the mask `ff` of its row. -/
def cwMatches (op : Byte) (c : Code) : Prop :=
  match c with
  | .command cw => cw &&& 0xff = op.setWidth 64
  | .outbound _ => False
  | .inbound _ => False

/-- The leading bytes of an outbound frame agree with a row's header, timer and command bytes. -/
def requestMatches (c0 c1 : Byte) (c : Code) : Prop :=
  match c with
  | .command _ => False
  | .outbound bs => bs.take 7 = [0x50, 0x00, 0x00, 0xff, 0xff, 0x03, 0x00] ∧
      (bs.drop 9).take 4 = [0x00, 0x00, c0, c1]
  | .inbound _ => False

/-- The first byte of an inbound frame is the row's. -/
def responseMatches (b : Byte) (c : Code) : Prop :=
  match c with
  | .command _ => False
  | .outbound _ => False
  | .inbound bs => bs.head? = some b

/-- The code of an instruction matches its row. -/
def Statement : Instr → Prop
  | .dtKind f => cwMatches 0x10 (encode (.dtKind f))
  | .dtCode f => cwMatches 0x11 (encode (.dtCode f))
  | .dtSubcmd f => cwMatches 0x12 (encode (.dtSubcmd f))
  | .feRead f => cwMatches 0x20 (encode (.feRead f))
  | .feWrite f => cwMatches 0x21 (encode (.feWrite f))
  | .feSelftest f => cwMatches 0x22 (encode (.feSelftest f))
  | .rdRecv f => cwMatches 0x30 (encode (.rdRecv f))
  | .bcEnc f => cwMatches 0x40 (encode (.bcEnc f))
  | .bcDec f => cwMatches 0x41 (encode (.bcDec f))
  | .wcEnc f => cwMatches 0x50 (encode (.wcEnc f))
  | .wcDec f => cwMatches 0x51 (encode (.wcDec f))
  | .wcSenc f => cwMatches 0x52 (encode (.wcSenc f))
  | .wcSdec f => cwMatches 0x53 (encode (.wcSdec f))
  | .rmLayout f => cwMatches 0x60 (encode (.rmLayout f))
  | .rmSizeof f => cwMatches 0x61 (encode (.rmSizeof f))
  | .rmDec f => cwMatches 0x62 (encode (.rmDec f))
  | .rmEnc f => cwMatches 0x63 (encode (.rmEnc f))
  | .reqRead k a c n => requestMatches 0x01 0x04 (encode (.reqRead k a c n))
  | .reqWrite k a c n p => requestMatches 0x01 0x14 (encode (.reqWrite k a c n p))
  | .reqSelftest u d => requestMatches 0x17 0x16 (encode (.reqSelftest u d))
  | .respD0 r b => responseMatches 0xd0 (encode (.respD0 r b))
  | .respD4 r b => responseMatches 0xd4 (encode (.respD4 r b))

/-- The low byte of a command word is its `OP`. -/
theorem encodeCw_low (op : Byte) (f : CwFields) : encodeCw op f &&& 0xff = op.setWidth 64 := by
  have h : (0xff : CmdWord) = BitVec.setWidth 64 (255#8) := by decide
  ext i hi
  simp only [h, encodeCw, BitVec.getElem_and, BitVec.getElem_or, BitVec.getElem_setWidth, BitVec.getElem_shiftLeft]
  by_cases h8 : i < 8
  · interval_cases i <;> simp
  · have h0 : (255#8).getLsbD i = false := BitVec.getLsbD_of_ge _ _ (by omega)
    have h1 : op.getLsbD i = false := BitVec.getLsbD_of_ge _ _ (by omega)
    simp [h0, h1]

theorem dtKind (f : CwFields) : Statement (.dtKind f) := encodeCw_low _ f
theorem dtCode (f : CwFields) : Statement (.dtCode f) := encodeCw_low _ f
theorem dtSubcmd (f : CwFields) : Statement (.dtSubcmd f) := encodeCw_low _ f
theorem feRead (f : CwFields) : Statement (.feRead f) := encodeCw_low _ f
theorem feWrite (f : CwFields) : Statement (.feWrite f) := encodeCw_low _ f
theorem feSelftest (f : CwFields) : Statement (.feSelftest f) := encodeCw_low _ f
theorem rdRecv (f : CwFields) : Statement (.rdRecv f) := encodeCw_low _ f
theorem bcEnc (f : CwFields) : Statement (.bcEnc f) := encodeCw_low _ f
theorem bcDec (f : CwFields) : Statement (.bcDec f) := encodeCw_low _ f
theorem wcEnc (f : CwFields) : Statement (.wcEnc f) := encodeCw_low _ f
theorem wcDec (f : CwFields) : Statement (.wcDec f) := encodeCw_low _ f
theorem wcSenc (f : CwFields) : Statement (.wcSenc f) := encodeCw_low _ f
theorem wcSdec (f : CwFields) : Statement (.wcSdec f) := encodeCw_low _ f
theorem rmLayout (f : CwFields) : Statement (.rmLayout f) := encodeCw_low _ f
theorem rmSizeof (f : CwFields) : Statement (.rmSizeof f) := encodeCw_low _ f
theorem rmDec (f : CwFields) : Statement (.rmDec f) := encodeCw_low _ f
theorem rmEnc (f : CwFields) : Statement (.rmEnc f) := encodeCw_low _ f
theorem reqRead (k : DevKind) (a : Word) (c : Byte) (n : Word) : Statement (.reqRead k a c n) := ⟨rfl, rfl⟩
theorem reqWrite (k : DevKind) (a : Word) (c : Byte) (n : Word) (p : List Byte) :
    Statement (.reqWrite k a c n p) := ⟨rfl, rfl⟩
theorem reqSelftest (u : Word) (d : List Byte) : Statement (.reqSelftest u d) := ⟨rfl, rfl⟩
theorem respD0 (r b : List Byte) : Statement (.respD0 r b) := rfl
theorem respD4 (r b : List Byte) : Statement (.respD4 r b) := rfl

end Sys2Proof.Laws.RowMatch
end

