-- ==== Sys2Proof/Tests/Slice0.lean ====
section
/-! SUPPORT. Tests. Expected values are the vectors of spec/95_test_vectors.md (Part 1: the source's own; Part 2:
calculated there from the rules), or hand calculations from the rule named. -/

namespace Sys2Proof.Tests

open Sys2Proof Sys2Proof.Machine Sys2Proof.Claims

/-! ### Helpers -/

/-- The state after reset with these items in `DIN`. -/
def given (din : List Item) : State := { State.reset with din := din }

/-- A finished step meets a test. -/
def leaves (o : Out) (p : State → Bool) : Bool :=
  match o with
  | .next t => p t
  | .fault _ => false
  | .refused _ => false

/-- An operation succeeds with this `DOUT`. -/
def gives (i : Instr) (s : State) (out : List Item) : Bool :=
  leaves (exec i s) fun t => t.status == 0 && t.dout == out && t.olen == BitVec.ofNat 32 out.length && !t.busy

/-- An operation succeeds with this `RES`. -/
def scores (i : Instr) (s : State) (v : Word) : Bool :=
  leaves (exec i s) fun t => t.status == 0 && t.res == v && t.dout == []

/-- An operation fails with this `STATUS` and delivers nothing. -/
def fails (i : Instr) (s : State) (st : BitVec 24) : Bool :=
  leaves (exec i s) fun t => t.status == st && t.dout == [] && t.olen == 0

/-- A step is refused for this reason. -/
def refuses (o : Out) (r : Refusal) : Bool :=
  match o with
  | .next _ => false
  | .fault _ => false
  | .refused q => q == r

/-- What a code decodes to. -/
def reads (c : Code) : Option Instr := (decode c).toOption

/-- Operand fields that are all 0. -/
def zero : CwFields := ⟨0, 0, 0, 0⟩

/-- The state of `RD.RECV` just issued, on these bytes. -/
def receiving (bs : List Byte) (term : RxTerm) : State :=
  { State.reset with op := 0x30, busy := true, phase := .waitStart, rxBytes := bs, rxTerm := term }

/-- The continuation steps leave this `STATUS`, this `DOUT` and these bytes in `RX`. -/
def ends (s : State) (st : BitVec 24) (out left : List Byte) : Bool :=
  let t := recvSteps 3 s
  t.status == st && t.dout == bytes out && t.rxBytes == left && !t.busy && t.phase == .idle

/-- Layout A of spec/95 section 2.8. -/
def layoutA : List Descriptor := [0x000001, 0x000002, 0x000003, 0x000004, 0x000005, 0x000506]

/-- The table that layout A fills: widths 1, 1, 1, 2, 2, 3 (the example of spec/45 R231). -/
def tableA : List LtEntry :=
  [⟨.bool, 0, 1⟩, ⟨.int16, 0, 1⟩, ⟨.uint16, 0, 1⟩, ⟨.int32, 0, 2⟩, ⟨.uint32, 0, 2⟩, ⟨.string, 5, 3⟩]

/-- The state after reset with layout A loaded and these items in `DIN`. -/
def withA (din : List Item) : State :=
  { given din with ltValid := true, ltN := 6, ltSize := 10, ltF := tableA }

/-- "HELLO". -/
def hello : List Byte := [0x48, 0x45, 0x4c, 0x4c, 0x4f]

/-- The record of the example of spec/45 R236. -/
def recordA : List FieldVal := [.b true, .i16 (-1), .u16 65535, .i32 305419896, .u32 4294967295, .s hello]

/-- Its words as `RM.ENC` writes them (the example of spec/45 R240). -/
def wordsA : List Word := [0x0001, 0xffff, 0xffff, 0x5678, 0x1234, 0xffff, 0xffff, 0x4548, 0x4c4c, 0x004f]

/-- The state after reset with this bound on items and these items in `DIN`. -/
def bounded (m : Nat) (din : List Item) : State :=
  { given din with params := { Params.default with maxItems := some m } }

/-- The state after reset with the host about to do this. -/
def hostDoes (a : HostAct) : State := { State.reset with hostQ := [a], sched := [.host] }

/-- The state after reset with the transport about to do this. -/
def wireDoes (a : WireAct) : State := { State.reset with wireQ := [a], sched := [.transport] }

/-- The source's example of a response without payload (spec/95 section 1.2). -/
def emptyResponse : List Byte := [0xd0, 0, 0, 0, 0, 0, 0, 2, 0, 0, 0]

/-! ### WellFormed refuses ill-formed terms -/

theorem test_wf_payload_too_long : (Instr.reqWrite .word 0 0xa8 0 (List.replicate 65524 0)).wf = false := by
  rw [Instr.wf, payloadFits, List.length_replicate]
  rfl

theorem test_wf_payload_longest : (Instr.reqWrite .word 0 0xa8 0 (List.replicate 65523 0)).wf = true := by
  rw [Instr.wf, payloadFits, List.length_replicate]
  rfl

theorem test_wf_selftest_too_long : (Instr.reqSelftest 0 (List.replicate 65530 0)).wf = false := by
  rw [Instr.wf, selftestFits, List.length_replicate]
  rfl

theorem test_wf_body_too_long : (Instr.respD0 (List.replicate 6 0) (List.replicate 65536 0)).wf = false := by
  rw [Instr.wf, routingFits, bodyFits, List.length_replicate, List.length_replicate]
  rfl

theorem test_wf_d0_routing_is_six_bytes :
    (Instr.respD0 (List.replicate 5 0) [0, 0]).wf = false ∧ (Instr.respD0 (List.replicate 7 0) [0, 0]).wf = false ∧
      (Instr.respD0 (List.replicate 6 0) [0, 0]).wf = true := by decide

theorem test_wf_d4_routing_is_ten_bytes :
    (Instr.respD4 (List.replicate 6 0) [0, 0]).wf = false ∧ (Instr.respD4 (List.replicate 10 0) [0, 0]).wf = true := by
  decide

/-! ### Decode: a word or frame of every constructor, written out from spec/30 R91, R93, R95, R100 -/

theorem test_decode_dtKind : decodeTableWord 64 0x0000000000000510 = some (.dtKind ⟨5, 0, 0, 0⟩) := by decide
theorem test_decode_dtCode : decodeTableWord 64 0x000000000000ff11 = some (.dtCode ⟨255, 0, 0, 0⟩) := by decide
theorem test_decode_dtSubcmd : decodeTableWord 64 0x0000000000000212 = some (.dtSubcmd ⟨2, 0, 0, 0⟩) := by decide
theorem test_decode_feRead : decodeTableWord 64 0x0000000a012c0520 = some (.feRead ⟨5, 300, 10, 0⟩) := by decide
theorem test_decode_feWrite : decodeTableWord 64 0x0000000300c80221 = some (.feWrite ⟨2, 200, 3, 0⟩) := by decide
theorem test_decode_feSelftest : decodeTableWord 64 0x0000000000000022 = some (.feSelftest zero) := by decide
theorem test_decode_rdRecv : decodeTableWord 64 0x0000000000000030 = some (.rdRecv zero) := by decide
theorem test_decode_bcEnc : decodeTableWord 64 0x0000000000000040 = some (.bcEnc zero) := by decide
theorem test_decode_bcDec : decodeTableWord 64 0x0000000500000041 = some (.bcDec ⟨0, 0, 5, 0⟩) := by decide
theorem test_decode_wcEnc : decodeTableWord 64 0x0000000000000050 = some (.wcEnc zero) := by decide
theorem test_decode_wcDec : decodeTableWord 64 0x0000000000000051 = some (.wcDec zero) := by decide
theorem test_decode_wcSenc : decodeTableWord 64 0x0000000000000052 = some (.wcSenc zero) := by decide
theorem test_decode_wcSdec : decodeTableWord 64 0x0003000000000053 = some (.wcSdec ⟨0, 0, 0, 3⟩) := by decide
theorem test_decode_rmLayout : decodeTableWord 64 0x0000000000000060 = some (.rmLayout zero) := by decide
theorem test_decode_rmSizeof : decodeTableWord 64 0x0000000000000061 = some (.rmSizeof zero) := by decide
theorem test_decode_rmDec : decodeTableWord 64 0x0000000000000062 = some (.rmDec zero) := by decide
theorem test_decode_rmEnc : decodeTableWord 64 0x0000000000000063 = some (.rmEnc zero) := by decide

/-- Every field at its own place and none dropped (spec/30 R91). -/
theorem test_decode_every_field : decodeTableWord 64 0x7766554433221120 = some (.feRead ⟨0x11, 0x3322, 0x5544, 0x7766⟩) := by
  decide

/-- The illegal command words of spec/95 section 2.9. -/
theorem test_decode_illegal :
    [0x00, 0x13, 0x23, 0x31, 0x42, 0x54, 0x64, 0x99, 0xff].all (fun w => (decodeTableWord 64 w).isNone) = true := by decide

/-- The source's read frame (spec/95 section 1.1). -/
theorem test_decode_reqRead :
    reads (.outbound [0x50, 0, 0, 0xff, 0xff, 3, 0, 0x0c, 0, 0, 0, 1, 4, 0, 0, 0x64, 0, 0, 0xa8, 0x0a, 0]) =
      some (.reqRead .word 100 0xa8 10) := by decide

/-- A write frame of spec/95 section 2.3. -/
theorem test_decode_reqWrite :
    reads (.outbound [0x50, 0, 0, 0xff, 0xff, 3, 0, 0x0e, 0, 0, 0, 1, 0x14, 1, 0, 0xc8, 0, 0, 0x90, 3, 0, 0x10, 0x10]) =
      some (.reqWrite .bit 200 0x90 3 [0x10, 0x10]) := by decide

/-- The self-test frame of spec/95 section 2.4. -/
theorem test_decode_reqSelftest :
    reads (.outbound [0x50, 0, 0, 0xff, 0xff, 3, 0, 0x0c, 0, 0, 0, 0x17, 0x16, 0, 0, 4, 0, 0xde, 0xad, 0xbe, 0xef]) =
      some (.reqSelftest 0 [4, 0, 0xde, 0xad, 0xbe, 0xef]) := by decide

/-- Vector 3 of spec/95 section 2.5. -/
theorem test_decode_respD0 :
    reads (.inbound [0xd0, 0, 0, 0xff, 0xff, 3, 0, 6, 0, 0, 0, 0x34, 0x12, 0x78, 0x56]) =
      some (.respD0 [0, 0, 0xff, 0xff, 3, 0] [0, 0, 0x34, 0x12, 0x78, 0x56]) := by decide

/-- Vector 4 of spec/95 section 2.5. -/
theorem test_decode_respD4 :
    reads (.inbound [0xd4, 0, 0x34, 0x12, 0, 0, 0, 0xff, 0xff, 3, 0, 4, 0, 0, 0, 0x10, 0x10]) =
      some (.respD4 [0, 0x34, 0x12, 0, 0, 0, 0xff, 0xff, 3, 0] [0, 0, 0x10, 0x10]) := by decide

/-- Frames that break one rule each: header, length, timer, command, subcommand, reserved byte, start byte. -/
theorem test_decode_broken_frames :
    [Code.outbound [0x51, 0, 0, 0xff, 0xff, 3, 0, 0x0c, 0, 0, 0, 1, 4, 0, 0, 0x64, 0, 0, 0xa8, 0x0a, 0],
     .outbound [0x50, 0, 0, 0xff, 0xff, 3, 0, 0x0d, 0, 0, 0, 1, 4, 0, 0, 0x64, 0, 0, 0xa8, 0x0a, 0],
     .outbound [0x50, 0, 0, 0xff, 0xff, 3, 0, 0x0c, 0, 1, 0, 1, 4, 0, 0, 0x64, 0, 0, 0xa8, 0x0a, 0],
     .outbound [0x50, 0, 0, 0xff, 0xff, 3, 0, 0x0c, 0, 0, 0, 2, 4, 0, 0, 0x64, 0, 0, 0xa8, 0x0a, 0],
     .outbound [0x50, 0, 0, 0xff, 0xff, 3, 0, 0x0c, 0, 0, 0, 1, 4, 2, 0, 0x64, 0, 0, 0xa8, 0x0a, 0],
     .outbound [0x50, 0, 0, 0xff, 0xff, 3, 0, 0x0c, 0, 0, 0, 1, 4, 0, 0, 0x64, 0, 1, 0xa8, 0x0a, 0],
     .inbound [0x50, 0, 0, 0xff, 0xff, 3, 0], .inbound [0xd0, 0, 0, 0, 0, 0, 0, 3, 0, 0, 0]].all
      (fun c => (reads c).isNone) = true := by decide

/-- The opcode table's own words of the wire rows (log 15). -/
theorem test_decode_table_words :
    (decodeTableWord 104 0x500000ffff03000c0000000104).isSome = true ∧
      decodeTableWord 8 0xd0 = some (.respD0 [0, 0, 0, 0, 0, 0] []) ∧
      decodeTableWord 8 0xd4 = some (.respD4 [0, 0, 0, 0, 0, 0, 0, 0, 0, 0] []) := by decide

/-- Encoding gives the word back. -/
theorem test_encode_feRead : encode (.feRead ⟨5, 100, 10, 0⟩) = .command 0x0000000a00640520 := by decide

/-! ### One step of every instruction -/

theorem test_dtKind : scores (.dtKind ⟨5, 0, 0, 0⟩) State.reset 0 = true := by decide
theorem test_dtKind_unknown : fails (.dtKind ⟨10, 0, 0, 0⟩) State.reset 0x00000a = true := by decide
theorem test_dtCode : scores (.dtCode ⟨5, 0, 0, 0⟩) State.reset 0x00a8 = true := by decide
theorem test_dtCode_unknown : fails (.dtCode ⟨255, 0, 0, 0⟩) State.reset 0x00000a = true := by decide
theorem test_dtSubcmd : scores (.dtSubcmd ⟨5, 0, 0, 0⟩) State.reset 0 = true := by decide
theorem test_dtSubcmd_bit : scores (.dtSubcmd ⟨2, 0, 0, 0⟩) State.reset 1 = true := by decide

/-- The source's example (spec/95 section 1.1). -/
theorem test_feRead : gives (.feRead ⟨5, 100, 10, 0⟩) State.reset
    (bytes [0x50, 0, 0, 0xff, 0xff, 3, 0, 0x0c, 0, 0, 0, 1, 4, 0, 0, 0x64, 0, 0, 0xa8, 0x0a, 0]) = true := by decide

/-- `MAX_COUNT` = 960 and a count of 961 (spec/95 section 2.2). -/
theorem test_feRead_count_limit :
    fails (.feRead ⟨5, 0, 961, 0⟩) { State.reset with params := { Params.default with maxCount := 960 } } 0x00001d = true := by
  decide

theorem test_feWrite : gives (.feWrite ⟨2, 200, 3, 0⟩) (given (bytes [0x10, 0x10]))
    (bytes [0x50, 0, 0, 0xff, 0xff, 3, 0, 0x0e, 0, 0, 0, 1, 0x14, 1, 0, 0xc8, 0, 0, 0x90, 3, 0, 0x10, 0x10]) = true := by
  decide

/-- The device is tested before the length (spec/60 R289). -/
theorem test_feWrite_order :
    fails (.feWrite ⟨200, 0, 1, 0⟩)
        { given (bytes [1, 2]) with params := { Params.default with maxPayload := 1 } } 0x00000a = true ∧
      fails (.feWrite ⟨5, 0, 1, 0⟩)
        { given (bytes [1, 2]) with params := { Params.default with maxPayload := 1 } } 0x00002d = true := by decide

theorem test_feSelftest : gives (.feSelftest zero) State.reset
    (bytes [0x50, 0, 0, 0xff, 0xff, 3, 0, 0x0c, 0, 0, 0, 0x17, 0x16, 0, 0, 4, 0, 0xde, 0xad, 0xbe, 0xef]) = true := by
  decide

/-- The issue step of `RD.RECV` (spec/42 R172). -/
theorem test_rdRecv : leaves (exec (.rdRecv zero) State.reset) (fun t => t.busy && t.phase == .waitStart) = true := by decide

/-- Vectors 1, 2 (the source's), 4, 7, 8 and 11 of spec/95 section 2.5. -/
theorem test_recv_open :
    ends (receiving emptyResponse .stillOpen) 0 [] [] = true ∧
      ends (receiving [0xd0, 0, 0, 0, 0, 0, 0, 2, 0, 1, 0] .stillOpen) 0x000105 [] [] = true ∧
      ends (receiving [0xd4, 0, 0x34, 0x12, 0, 0, 0, 0xff, 0xff, 3, 0, 4, 0, 0, 0, 0x10, 0x10] .stillOpen) 0
        [0x10, 0x10] [] = true ∧
      ends (receiving [0xd0, 0, 0, 0xff, 0xff, 3, 0, 4, 0, 0x51, 0xc0, 0xaa, 0xbb] .stillOpen) 0xc05105 [] [] = true ∧
      ends (receiving [0x50, 0, 0, 0xff, 0xff, 3, 0] .stillOpen) 0x000014 [] [0, 0, 0xff, 0xff, 3, 0] = true ∧
      ends (receiving [0xd0, 0, 0, 0xff, 0xff, 3, 0, 1, 0, 0x7f] .stillOpen) 0x000024 [] [] = true := by decide

/-- Vectors 9, 13, 14, 17, 19 and 20 of spec/95 section 2.5. -/
theorem test_recv_closed :
    ends (receiving [0x7f] .eof) 0x000014 [] [] = true ∧ ends (receiving [] .ioError) 0x000023 [] [] = true ∧
      ends (receiving [0xd0, 0, 0, 0xff] .eof) 0x000013 [] [] = true ∧
      ends (receiving [0xd0, 0, 0, 0xff, 0xff, 3, 0, 6, 0, 1, 0, 0x34] .ioError) 0x000023 [] [] = true ∧
      ends (receiving emptyResponse .eof) 0 [] [] = true ∧
      ends (receiving (emptyResponse ++ [0xd0, 7]) .stillOpen) 0 [] [0xd0, 7] = true := by decide

/-- Vectors 18 and 22 of spec/95 section 2.5 in what the rules R171 and R174 fix of them (log 26). -/
theorem test_recv_waits :
    ((recvSteps 3 (receiving [0xd0, 0, 0, 0xff, 0xff, 3, 0, 6, 0, 0, 0, 0x34] .stillOpen)).phase = .waitBody) ∧
      ((recvSteps 3 (receiving [0xd0, 0, 0, 0xff, 0xff, 3, 0, 6, 0, 0, 0, 0x34] .stillOpen)).blen = 6) ∧
      ((recvSteps 3 (receiving [0xd0, 0, 0, 0xff, 0xff, 3, 0, 6, 0, 0, 0, 0x34] .stillOpen)).busy = true) ∧
      ((recvSteps 3 (receiving [] .stillOpen)).phase = .waitStart) := by decide

/-- The source's pairs (spec/95 section 1.3). -/
theorem test_bcEnc : gives (.bcEnc zero) (given [.bool true, .bool true, .bool false]) (bytes [0x11, 0x00]) = true := by decide
theorem test_bcEnc_eight : gives (.bcEnc zero)
    (given ([true, false, true, true, false, false, true, false].map .bool)) (bytes [0x10, 0x11, 0x00, 0x10]) = true := by
  decide

theorem test_bcDec : gives (.bcDec ⟨0, 0, 5, 0⟩) (given (bytes [0x10, 0x01, 0x11]))
    ([true, false, false, true, true].map .bool) = true := by decide

/-- Bits 4 and 0 alone count, and a short payload fails (spec/95 section 2.6). -/
theorem test_bcDec_corners :
    gives (.bcDec ⟨0, 0, 2, 0⟩) (given (bytes [0xfe])) ([true, false].map .bool) = true ∧
      gives (.bcDec ⟨0, 0, 2, 0⟩) (given (bytes [0xef])) ([false, true].map .bool) = true ∧
      fails (.bcDec ⟨0, 0, 3, 0⟩) (given (bytes [0x11])) 0x00001b = true := by decide

theorem test_wcEnc : gives (.wcEnc zero) (given ([0x0000, 0xffff, 0x00ff, 0xff00].map .word))
    (bytes [0, 0, 0xff, 0xff, 0xff, 0, 0, 0xff]) = true := by decide
theorem test_wcDec : gives (.wcDec zero) (given (bytes [0x34, 0x12, 0x78, 0x56])) ([0x1234, 0x5678].map .word) = true := by
  decide
theorem test_wcDec_odd : fails (.wcDec zero) (given (bytes [0x34, 0x12, 0x56])) 0x000034 = true := by decide

theorem test_wcSenc : gives (.wcSenc zero) (given ([0x41, 0x42, 0x43].map .char)) (bytes [0x41, 0x42, 0x43, 0]) = true := by
  decide
theorem test_wcSenc_even : gives (.wcSenc zero) (given ([0x41, 0x42].map .char)) (bytes [0x41, 0x42, 0, 0]) = true := by decide

theorem test_wcSdec : gives (.wcSdec ⟨0, 0, 0, 3⟩) (given (bytes [0x41, 0x42, 0x43, 0]))
    ([0x41, 0x42, 0x43].map .char) = true := by decide

/-- Odd length is reported before shortness (spec/60 R289). -/
theorem test_wcSdec_errors :
    fails (.wcSdec ⟨0, 0, 0, 9⟩) (given (bytes [0x41, 0x42, 0x43])) 0x000034 = true ∧
      fails (.wcSdec ⟨0, 0, 0, 5⟩) (given (bytes [0x41, 0x42, 0x43, 0])) 0x00002b = true := by decide

theorem test_rmLayout : leaves (exec (.rmLayout zero) (given (layoutA.map .desc)))
    (fun t => t.status == 0 && t.ltValid && t.ltN == 6 && t.ltSize == 10 && t.ltF == tableA) = true := by decide

/-- The vectors that fail, of spec/95 section 2.8; the table is lost. -/
theorem test_rmLayout_errors :
    fails (.rmLayout zero) (withA [.desc 0x000007, .desc 0x000006]) 0x000007 = true ∧
      fails (.rmLayout zero) (withA [.desc 0x000006]) 0x000008 = true ∧
      fails (.rmLayout zero) (withA [.desc 0xffff06, .desc 0xffff06]) 0x00005d = true ∧
      leaves (exec (.rmLayout zero) (withA [.desc 0x000000])) (fun t => !t.ltValid && t.ltN == 0 && t.ltSize == 0) = true := by
  decide

theorem test_rmSizeof : scores (.rmSizeof zero) (withA []) 10 = true := by decide
theorem test_rmSizeof_none : fails (.rmSizeof zero) State.reset 0x00007b = true := by decide

/-- The example of spec/45 R236: a Bool word of 2 is true. -/
theorem test_rmDec : gives (.rmDec zero) (withA ((0x0002 :: wordsA.drop 1).map .word)) (recordA.map .val) = true := by decide
theorem test_rmDec_count : fails (.rmDec zero) (withA ((wordsA.drop 1).map .word)) 0x00003b = true := by decide

theorem test_rmEnc : gives (.rmEnc zero) (withA (recordA.map .val)) (wordsA.map .word) = true := by decide

/-- The first failing field decides (spec/60 R289). -/
theorem test_rmEnc_errors :
    fails (.rmEnc zero) (withA (([.b true, .u16 1, .u16 0, .i32 0, .u32 0, .s []] : List FieldVal).map .val)) 0x00005b = true ∧
      fails (.rmEnc zero) (withA (([.b true, .i16 1, .u16 0, .i32 0, .u32 0, .s []] : List FieldVal).map .val)) 0x00006b = true ∧
      fails (.rmEnc zero) (withA [.val (.b true)]) 0x00004b = true := by decide

theorem test_reqRead : leaves (exec (.reqRead .word 100 0xa8 10) State.reset) (fun t => t.tx ==
    [0x50, 0, 0, 0xff, 0xff, 3, 0, 0x0c, 0, 0, 0, 1, 4, 0, 0, 0x64, 0, 0, 0xa8, 0x0a, 0]) = true := by decide
theorem test_reqWrite : leaves (exec (.reqWrite .bit 200 0x90 3 [0x10, 0x10]) State.reset) (fun t => t.tx ==
    [0x50, 0, 0, 0xff, 0xff, 3, 0, 0x0e, 0, 0, 0, 1, 0x14, 1, 0, 0xc8, 0, 0, 0x90, 3, 0, 0x10, 0x10]) = true := by decide
theorem test_reqSelftest : leaves (exec (.reqSelftest 0 []) State.reset) (fun t => t.tx ==
    [0x50, 0, 0, 0xff, 0xff, 3, 0, 6, 0, 0, 0, 0x17, 0x16, 0, 0]) = true := by decide
theorem test_respD0 : leaves (exec (.respD0 [0, 0, 0, 0, 0, 0] [0, 0]) State.reset) (fun t => t.rxBytes == emptyResponse) = true := by
  decide
theorem test_respD4 : leaves (exec (.respD4 [1, 2, 3, 4, 5, 6, 7, 8, 9, 10] [0, 0]) State.reset) (fun t => t.rxBytes ==
    [0xd4, 1, 2, 3, 4, 5, 6, 7, 8, 9, 10, 2, 0, 0, 0]) = true := by decide

/-! ### Steps -/

/-- The host interface's word runs as the first instruction after reset. -/
theorem test_step_runs_the_word :
    leaves (step (State.reset.withFetchWord 64 0x0000000000000511)) (fun t => t.res == 0x00a8 && t.op == 0x11) = true ∧
      leaves (step (State.reset.withFetchWord 8 0xd0)) (fun t => t.rxBytes == [0xd0, 0, 0, 0, 0, 0, 0, 0, 0]) = true := by decide

/-- An illegal operation (spec/95 section 2.9). -/
theorem test_step_illegal :
    leaves (step (hostDoes (.issue 0x0000000000000599 []))) (fun t => t.status == 0x00000c && t.dev == 0) = true := by decide

/-- After reset nothing happens until the host acts (spec/70 R322). -/
theorem test_step_idle : leaves (step State.reset) (fun t => t == State.reset) = true := by decide

/-- `selfTest` compares a whole payload, reports an error completion and a failing `writeAll` as `false`, and has no result
while the stream stays open and silent (spec/46 R270, spec/42 R180). -/
theorem test_selfTest :
    ((selfTest .connected ⟨true, [.append (encodeResponse 0xd0 [0, 0, 0xff, 0xff, 3, 0] (0 :: 0 :: Config.sentinel))]⟩
        State.reset).2 matches .ok true) ∧
      ((selfTest .connected ⟨true, [.append (encodeResponse 0xd0 [0, 0, 0xff, 0xff, 3, 0] [0x51, 0xc0])]⟩
        State.reset).2 matches .ok false) ∧
      ((selfTest .connected ⟨true, [.close .eof]⟩ State.reset).2 matches .ok false) ∧
      ((selfTest .connected ⟨false, []⟩ State.reset).2 matches .ok false) ∧
      ((selfTest .connected ⟨true, []⟩ State.reset).2 matches .error .waiting) := by decide

/-- `readWord(D, 100, 2)`, program P1 of spec/95 Part 3. -/
theorem test_readWord :
    (match (readWord .connected
        ⟨true, [.append [0xd0, 0, 0, 0xff, 0xff, 3, 0, 6, 0, 0, 0, 0x34, 0x12, 0x78, 0x56]]⟩ 5 100 2 State.reset).2 with
      | .ok ws => ws == [0x1234, 0x5678]
      | .error _ => false) = true := by decide

/-! ### Witnesses: the hypotheses of each statement of Obligations.lean can be met, each clause at the edge of its range -/

/-- The state after reset with other limits. -/
def limited (din : List Item) (count payload body fields : Nat) : State :=
  { given din with params := { Params.default with maxCount := count, maxPayload := payload, maxBody := body,
                                                    maxFields := fields } }

/-- A decoder state that waits for its sub-header or its body. -/
def waiting (ph : RdPhase) (bs : List Byte) (term : RxTerm) (shl : BitVec 4) (blen : Word) : State :=
  { receiving bs term with phase := ph, shl := shl, blen := blen }

theorem witness_DtKindReportsTheKind : Ready State.reset ∧
    State.reset.params.devtab[(9 : Byte).toNat]? = some ⟨0xa9, .word⟩ ∧
    State.reset.params.devtab.length ≤ (10 : Byte).toNat := by decide

theorem witness_DtCodeReportsTheWireCode : Ready State.reset ∧
    State.reset.params.devtab[(0 : Byte).toNat]? = some ⟨0x9c, .bit⟩ ∧
    State.reset.params.devtab.length ≤ (10 : Byte).toNat := by decide

theorem witness_DtSubcmdReportsTheSubcommand : Ready State.reset ∧
    State.reset.params.devtab[(5 : Byte).toNat]? = some ⟨0xa8, .word⟩ ∧
    State.reset.params.devtab.length ≤ (255 : Byte).toNat := by decide

theorem witness_FeReadBuildsTheReadFrame : Ready (limited [] 960 0 0 1) ∧
    (limited [] 960 0 0 1).params.devtab.length ≤ (10 : Byte).toNat ∧
    (limited [] 960 0 0 1).params.devtab[(5 : Byte).toNat]? = some ⟨0xa8, .word⟩ ∧
    (limited [] 960 0 0 1).params.maxCount < (961 : Word).toNat ∧
    (960 : Word).toNat ≤ (limited [] 960 0 0 1).params.maxCount ∧ Fits (limited [] 960 0 0 1) 21 := by decide

theorem witness_FeWriteBuildsTheWriteFrame :
    Ready (limited (bytes [1, 2]) 960 1 0 1) ∧ (limited (bytes [1, 2]) 960 1 0 1).din = bytes [1, 2] ∧
    (limited (bytes [1, 2]) 960 1 0 1).params.maxPayload ≤ 65523 ∧
    (limited (bytes [1, 2]) 960 1 0 1).params.devtab.length ≤ (10 : Byte).toNat ∧
    (limited (bytes [1, 2]) 960 1 0 1).params.devtab[(2 : Byte).toNat]? = some ⟨0x90, .bit⟩ ∧
    (limited (bytes [1, 2]) 960 1 0 1).params.maxCount < (961 : Word).toNat ∧
    (960 : Word).toNat ≤ (limited (bytes [1, 2]) 960 1 0 1).params.maxCount ∧
    (limited (bytes [1, 2]) 960 1 0 1).params.maxPayload < [1, 2].length ∧
    Ready (limited (bytes [1]) 960 1 0 1) ∧ [1].length ≤ (limited (bytes [1]) 960 1 0 1).params.maxPayload ∧
    Fits (limited (bytes [1]) 960 1 0 1) (21 + [1].length) := by decide

theorem witness_FeSelftestBuildsTheSelftestFrame : Ready State.reset ∧ State.reset.params.stData.length ≤ 65529 ∧
    Fits State.reset (15 + State.reset.params.stData.length) := by decide

theorem witness_FrameEncoderMeetsTheWireFormat :
    (given (bytes [])).din = bytes [] ∧
    leaves (exec (.feRead ⟨5, 1, 2, 0⟩) (given (bytes []))) (fun t => t.status == 0) = true ∧
    leaves (exec (.feWrite ⟨5, 1, 2, 0⟩) (given (bytes []))) (fun t => t.status == 0) = true ∧
    leaves (exec (.feSelftest zero) (given (bytes []))) (fun t => t.status == 0) = true := by decide

theorem witness_PullTakesExactlyN : 2 ≤ (receiving [1, 2] .eof).rxBytes.length ∧ (receiving [1, 2] .eof).rxBytes.length < 3 ∧
    (receiving [1, 2] .eof).rxTerm = .eof ∧ (receiving [1, 2] .ioError).rxTerm = .ioError ∧
    (receiving [1, 2] .stillOpen).rxTerm = .stillOpen := by decide

theorem witness_RecvIssueStartsTheReception : Ready State.reset := by decide

theorem witness_StartStepReadsTheDiscriminator :
    (receiving [0xd0, 1] .eof).phase = .waitStart ∧ (receiving [0xd0, 1] .eof).rxBytes = 0xd0 :: [1] ∧
    (receiving [0xd4] .eof).rxBytes = 0xd4 :: [] ∧ (receiving [0xd1] .eof).rxBytes = 0xd1 :: [] ∧
    (receiving [] .eof).rxBytes = [] ∧ (receiving [] .eof).rxTerm = .eof ∧ (receiving [] .ioError).rxTerm = .ioError ∧
    (receiving [] .stillOpen).rxTerm = .stillOpen := by decide

theorem witness_SubheaderStepReadsTheLength :
    (waiting .waitSubhdr [1, 2, 3, 4, 5, 6, 7, 8, 9] .eof 8 0).phase = .waitSubhdr ∧ 2 ≤ (8 : BitVec 4).toNat ∧
    (waiting .waitSubhdr [1, 2, 3, 4, 5, 6, 7, 8, 9] .eof 8 0).rxBytes = [1, 2, 3, 4, 5, 6] ++ 7 :: 8 :: [9] ∧
    [1, 2, 3, 4, 5, 6].length + 2 = (8 : BitVec 4).toNat ∧
    (waiting .waitSubhdr [1, 2, 3, 4, 5, 6, 7] .eof 8 0).rxBytes.length < (8 : BitVec 4).toNat ∧
    (waiting .waitSubhdr [1, 2, 3, 4, 5, 6, 7] .eof 8 0).rxTerm = .eof ∧
    (waiting .waitSubhdr [1, 2, 3, 4, 5, 6, 7] .ioError 8 0).rxTerm = .ioError ∧
    (waiting .waitSubhdr [1, 2, 3, 4, 5, 6, 7] .stillOpen 12 0).rxTerm = .stillOpen := by decide

/-- The decoder with `MAX_BODY` = 3, waiting for a body of that many bytes. -/
def bodyOf (bs : List Byte) (blen : Word) : State :=
  { waiting .waitBody bs .stillOpen 8 blen with params := { Params.default with maxBody := 3 } }

/-- The same with room for one item only. -/
def bodyNoRoom (bs : List Byte) (blen : Word) : State :=
  { bodyOf bs blen with params := { Params.default with maxItems := some 0 } }

theorem witness_BodyStepDeliversTheBody :
    (bodyOf [0, 0, 7, 8] 4).phase = .waitBody ∧
    (bodyOf [0, 0, 7, 8] 4).rxBytes = [0, 0, 7, 8] ++ [] ∧ [0, 0, 7, 8].length = (bodyOf [0, 0, 7, 8] 4).blen.toNat ∧
    (bodyOf [0, 0, 7, 8] 4).params.maxBody < [0, 0, 7, 8].length ∧
    (bodyOf [0, 9] 1).rxBytes = [0] ++ [9] ∧ [0].length = (bodyOf [0, 9] 1).blen.toNat ∧ [0].length < 2 ∧
    [0].length ≤ (bodyOf [0, 9] 1).params.maxBody ∧
    (bodyOf [1, 0, 9] 3).rxBytes = [1, 0, 9] ++ [] ∧ [1, 0, 9].length ≤ (bodyOf [1, 0, 9] 3).params.maxBody ∧
    un16 1 0 ≠ 0 ∧
    (bodyOf [0, 0, 9] 3).rxBytes = [0, 0, 9] ++ [] ∧ un16 0 0 = 0 ∧ Fits (bodyOf [0, 0, 9] 3) [9].length ∧
    (bodyNoRoom [0, 0, 9] 3).rxBytes = [0, 0, 9] ++ [] ∧ (bodyNoRoom [0, 0, 9] 3).overCapacity [9].length = true ∧
    (bodyOf [0, 0] 3).rxBytes.length < (bodyOf [0, 0] 3).blen.toNat ∧ (bodyOf [0, 0] 3).rxTerm = .stillOpen ∧
    (waiting .waitBody [0] .eof 8 2).rxBytes.length < (waiting .waitBody [0] .eof 8 2).blen.toNat ∧
    (waiting .waitBody [0] .eof 8 2).rxTerm = .eof ∧ (waiting .waitBody [0] .ioError 8 2).rxTerm = .ioError := by decide

theorem witness_ReceptionRefinesTheStreamFunction :
    (receiving emptyResponse .stillOpen).phase = .waitStart ∧ (receiving emptyResponse .stillOpen).busy = true ∧
    recvAll 65535 emptyResponse .stillOpen = .ok [] ∧ Fits (receiving emptyResponse .stillOpen) 0 ∧
    recvAll 65535 [0xd1] .stillOpen = .error .malformedFrame .invalidStart 0 ∧
    recvAll 65535 [0xd0] .stillOpen = .pending := by decide

theorem witness_ReceptionLeavesTheNextResponse :
    (receiving (emptyResponse ++ [0xd0]) .stillOpen).phase = .waitStart ∧
    recvAll 65535 (emptyResponse ++ [0xd0]) .stillOpen ≠ .pending ∧ recvAll 65535 [0xd1, 2] .eof ≠ .pending ∧
    recvAll 65535 [0xd0, 2] .eof ≠ .pending := by decide

theorem witness_ContinuationsWriteTheirRegistersOnly : (recvStep (receiving [0xd0] .stillOpen)).isSome = true ∧
    (recvStep (waiting .waitSubhdr [1, 2, 3, 4, 5, 6, 7, 8] .eof 8 0)).isSome = true ∧
    (recvStep (waiting .waitBody [0, 0] .eof 8 2)).isSome = true := by decide

theorem witness_OpenSilentStreamKeepsWaiting :
    ({ receiving [] .stillOpen with sched := [.block] } : State).sched = .block :: [] ∧
    (receiving [] .stillOpen).rxTerm = .stillOpen ∧
    ((receiving [] .stillOpen).phase = .waitStart ∧ (receiving [] .stillOpen).rxBytes = []) ∧
    ((waiting .waitSubhdr [1, 2, 3, 4, 5, 6, 7] .stillOpen 8 0).phase = .waitSubhdr ∧
      (waiting .waitSubhdr [1, 2, 3, 4, 5, 6, 7] .stillOpen 8 0).rxBytes.length < (8 : BitVec 4).toNat) ∧
    ((waiting .waitBody [1] .stillOpen 8 2).phase = .waitBody ∧
      (waiting .waitBody [1] .stillOpen 8 2).rxBytes.length < (2 : Word).toNat) := by decide

theorem witness_BcEncPacksTwoPerByte : Ready (given ([true].map .bool)) ∧ (given ([true].map .bool)).din = [true].map .bool ∧
    Fits (given ([true].map .bool)) (([true].length + 1) / 2) := by decide

theorem witness_BcDecUnpacksTwoPerByte : Ready (given (bytes [0x10])) ∧ (given (bytes [0x10])).din = bytes [0x10] ∧
    2 * [0x10].length < (3 : Word).toNat ∧ (2 : Word).toNat ≤ 2 * [0x10].length ∧
    Fits (given (bytes [0x10])) (2 : Word).toNat := by decide

theorem witness_BitsRoundTrip : Ready (given ([true].map .bool)) ∧ (given ([true].map .bool)).din = [true].map .bool ∧
    Fits (given ([true].map .bool)) ([true].length + 1) ∧
    gives (.bcEnc zero) (given ([true].map .bool)) (bytes [0x10]) = true ∧ (1 : Word).toNat = [true].length ∧
    (2 : Word).toNat = 2 * (([true].length + 1) / 2) := by decide

theorem witness_WcEncEmitsLowByteFirst : Ready (given ([0x1234].map .word)) ∧
    (given ([0x1234].map .word)).din = [0x1234].map .word ∧ Fits (given ([0x1234].map .word)) (2 * [0x1234].length) ∧
    0 < [0x1234].length := by decide

theorem witness_WcDecPairsBytes : Ready (given (bytes [1])) ∧ (given (bytes [1])).din = bytes [1] ∧ [1].length % 2 = 1 ∧
    Ready (given (bytes [1, 2])) ∧ (given (bytes [1, 2])).din = bytes [1, 2] ∧ [1, 2].length % 2 = 0 ∧
    Fits (given (bytes [1, 2])) ([1, 2].length / 2) ∧ 0 < [1, 2].length / 2 := by decide

theorem witness_WordsRoundTrip : Ready (given ([0x1234].map .word)) ∧ Fits (given ([0x1234].map .word)) 2 ∧
    gives (.wcEnc zero) (given ([0x1234].map .word)) (bytes [0x34, 0x12]) = true ∧ Ready (given (bytes [0x34, 0x12])) ∧
    Fits (given (bytes [0x34, 0x12])) [0x34, 0x12].length ∧ [0x34, 0x12].length % 2 = 0 ∧
    gives (.wcDec zero) (given (bytes [0x34, 0x12])) [.word 0x1234] = true := by decide

theorem witness_WcSencPadsWithNul : Ready (given ([0x41].map .char)) ∧ (given ([0x41].map .char)).din = [0x41].map .char ∧
    Fits (given ([0x41].map .char)) ([0x41].length + (2 - [0x41].length % 2)) := by decide

theorem witness_WcSdecTakesTheFirstCharacters : Ready (given (bytes [1])) ∧ [1].length % 2 = 1 ∧
    Ready (given (bytes [1, 2])) ∧ [1, 2].length % 2 = 0 ∧ [1, 2].length < (3 : Word).toNat ∧
    (2 : Word).toNat ≤ [1, 2].length ∧ Fits (given (bytes [1, 2])) (2 : Word).toNat := by decide

theorem witness_StringsRoundTrip : Ready (given ([0x41].map .char)) ∧ Fits (given ([0x41].map .char)) ([0x41].length + 2) ∧
    (1 : Word).toNat ≤ [0x41].length ∧ gives (.wcSenc zero) (given ([0x41].map .char)) (bytes [0x41, 0]) = true := by decide

theorem witness_LayoutFillsTheTable : Ready (limited (layoutA.map .desc) 0 0 0 6) ∧
    (limited (layoutA.map .desc) 0 0 0 6).din = layoutA.map .desc ∧
    layoutA.length ≤ (limited (layoutA.map .desc) 0 0 0 6).params.maxFields ∧ layoutA.map entryFor = tableA.map some ∧
    wordsOf tableA ≤ 0xFFFF := by decide

theorem witness_LayoutErrorClearsTheTable :
    Ready (limited (layoutA.map .desc) 0 0 0 5) ∧ (limited (layoutA.map .desc) 0 0 0 5).din = layoutA.map .desc ∧
    (limited (layoutA.map .desc) 0 0 0 5).params.maxFields < layoutA.length ∧
    [0x000001].map entryFor = [⟨.bool, 0, 1⟩].map some ∧ wordsOf [⟨.bool, 0, 1⟩] ≤ 0xFFFF ∧
    7 ≤ ((0x000007 : Descriptor).extractLsb' 0 8).toNat ∧ (0x000000 : Descriptor).extractLsb' 0 8 = 0 ∧
    [0xfffe06, 0x000001].length ≤ State.reset.params.maxFields ∧
    [0xffff06].map entryFor = [⟨.string, 0xffff, 0x8000⟩].map some ∧ wordsOf [⟨.string, 0xffff, 0x8000⟩] ≤ 0xFFFF ∧
    entryFor 0xfffe06 = some ⟨.string, 0xfffe, 0x8000⟩ ∧
    0xFFFF < wordsOf [⟨.string, 0xffff, 0x8000⟩] + (0x8000 : Word).toNat := by decide

theorem witness_SizeofReportsTheSize : Ready (withA []) ∧ (withA []).ltValid = true ∧ Ready State.reset ∧
    State.reset.ltValid = false := by decide

theorem witness_RmDecWalksTheFields : Ready (withA (wordsA.map .word)) ∧ (withA (wordsA.map .word)).din = wordsA.map .word ∧
    (withA (wordsA.map .word)).ltValid = true ∧ wordsA.length = (withA (wordsA.map .word)).ltSize.toNat ∧
    (withA (wordsA.map .word)).ltF.length = (withA (wordsA.map .word)).ltN ∧
    Fits (withA (wordsA.map .word)) (withA (wordsA.map .word)).ltN ∧
    (wordsA.drop 1).length ≠ (withA []).ltSize.toNat ∧ State.reset.ltValid = false := by decide

theorem witness_FieldsDecodeByKind : [0x4548, 0x4c4c, 0x004f].length = (5 : Word).toNat / 2 + 1 := by decide

theorem witness_RmEncWalksTheFields : Ready (withA (recordA.map .val)) ∧ (withA (recordA.map .val)).din = recordA.map .val ∧
    (∀ v ∈ recordA, v.inRange = true) ∧ (withA (recordA.map .val)).ltValid = true ∧ State.reset.ltValid = false ∧
    recordA.length = (withA (recordA.map .val)).ltN ∧ (recordA.drop 1).length ≠ (withA []).ltN ∧
    (withA (recordA.map .val)).ltF.length = (withA (recordA.map .val)).ltN ∧
    ((tableA.zip recordA).all fun p => variantFits p.1.kind p.2 && lengthFits p.1 p.2) = true ∧
    Fits (withA (recordA.map .val)) ((List.zipWith fieldEncode tableA recordA).flatten.length) ∧
    variantFits .bool (.u16 0) = false ∧ variantFits .string (.s [0x41]) = true ∧
    lengthFits ⟨.string, 5, 3⟩ (.s [0x41]) = false := by decide

theorem witness_FieldsEncodeByKind : (-32768 : Int) ≤ -32768 ∧ (-32768 : Int) < 32768 ∧ (-2147483648 : Int) ≤ 2147483647 ∧
    (2147483647 : Int) < 2147483648 ∧ hello.length = (⟨.string, 5, 3⟩ : LtEntry).clen.toNat := by decide

theorem witness_RecordsRoundTrip : (withA (recordA.map .val)).layoutSound = true ∧
    (withA (recordA.map .val)).din = recordA.map .val ∧
    gives (.rmEnc zero) (withA (recordA.map .val)) (wordsA.map .word) = true ∧
    Fits (withA (recordA.map .val)) recordA.length := by decide

theorem witness_RecordWordsComeBackNormalised : (withA (wordsA.map .word)).layoutSound = true ∧
    (withA (wordsA.map .word)).din = wordsA.map .word ∧
    gives (.rmDec zero) (withA (wordsA.map .word)) (recordA.map .val) = true ∧
    Fits (withA (wordsA.map .word)) wordsA.length := by decide

theorem witness_RequestFramesGoOut : ([] : List Byte).length ≤ 65523 ∧ ([7] : List Byte).length ≤ 65529 := by decide

theorem witness_ResponseFramesArrive : ([0, 0] : List Byte).length ≤ 65535 ∧ (List.replicate 6 (0 : Byte)).length = 6 ∧
    (List.replicate 10 (0 : Byte)).length = 10 ∧ State.reset.rxTerm = .stillOpen ∧ (receiving [] .eof).rxTerm ≠ .stillOpen := by
  decide

theorem witness_ArrivedResponseIsReceived : Ready State.reset ∧ State.reset.rxBytes = [] ∧
    leaves (exec (.rdRecv zero) State.reset) (fun t =>
      leaves (exec (.respD0 [0, 0, 0, 0, 0, 0] (0 :: 0 :: [7])) t) fun _ => true) = true ∧
    leaves (exec (.rdRecv zero) State.reset) (fun t =>
      leaves (exec (.respD4 [0, 0, 0, 0, 0, 0, 0, 0, 0, 0] (1 :: 0 :: [7])) t) fun _ => true) = true ∧
    [7].length + 2 ≤ State.reset.params.maxBody ∧ Fits State.reset [7].length ∧ un16 0 0 = 0 ∧ un16 1 0 ≠ 0 := by decide

theorem witness_IllegalOpChangesNothingElse : Issues (hostDoes (.issue 0x13 [])) 0x13 [] [] [] ∧
    (hostDoes (.issue 0x13 [])).busy = false ∧ (hostDoes (.issue 0x13 [])).phase = .idle ∧
    ((0x13 : CmdWord).extractLsb' 0 8).toNat ∉ opCodes := by decide

theorem witness_BusyPortTakesNoOperation :
    ({ hostDoes (.issue 0x10 []) with busy := true } : State).busy = true ∧
    Issues { hostDoes (.issue 0x10 []) with busy := true } 0x10 [] [] [] := by decide

theorem mem_operations : Instr.rmEnc ∈ operations ∧ Instr.dtKind ∈ operations ∧ Instr.rdRecv ∈ operations := by
  simp [operations]

theorem witness_EveryStopHasItsName :
    State.reset.busy = false ∧ (bounded 0 [.byte 1]).overCapacity (bounded 0 [.byte 1]).din.length = true ∧
    (given [.word 1, .byte 1]).overCapacity (given [.word 1, .byte 1]).din.length = false ∧
    Item.byte? (.word 1) = none ∧ Item.word? (.byte 1) = none ∧ Item.bool? (.byte 1) = none ∧ Item.char? (.byte 1) = none ∧
    Item.desc? (.byte 1) = none ∧ Item.val? (.val (.i16 32768)) = none ∧
    ([] : List Byte).length ≠ 6 ∧ (List.replicate 6 (0 : Byte)).length ≠ 10 := by decide

/-- A machine whose parameters the spec forbids: self-test data and write payloads that no length field counts. -/
def overlong : State :=
  { given (bytes (List.replicate 65524 0)) with
    params := { Params.default with stData := List.replicate 65530 0, maxPayload := 65524 } }

theorem witness_EveryStopHasItsName_longFrames :
    overlong.busy = false ∧ overlong.overCapacity overlong.din.length = false ∧ 65529 < overlong.params.stData.length ∧
      overlong.params.devtab[(5 : Byte).toNat]? = some ⟨0xa8, .word⟩ ∧ overlong.din = bytes (List.replicate 65524 0) ∧
      (0 : Word).toNat ≤ overlong.params.maxCount ∧ (List.replicate 65524 (0 : Byte)).length ≤ overlong.params.maxPayload ∧
      65523 < (List.replicate 65524 (0 : Byte)).length ∧ 65535 < (List.replicate 65536 (0 : Byte)).length := by
  refine ⟨rfl, rfl, ?_, rfl, rfl, by decide, ?_, ?_, ?_⟩
  · show 65529 < (List.replicate 65530 (0 : Byte)).length
    rw [List.length_replicate]
    decide
  · show (List.replicate 65524 (0 : Byte)).length ≤ 65524
    rw [List.length_replicate]
  · rw [List.length_replicate]
    decide
  · rw [List.length_replicate]
    decide

theorem witness_CompletionsWriteWhatTheySay : ([.byte 1] : List Item).length < 2 ^ 32 := by decide

theorem witness_TooManyItemsIsACapacityError :
    (bounded 1 [.word 1]).params.maxItems = some 1 ∧ (bounded 1 [.word 1]).din.length ≤ 1 ∧
    leaves (exec (.wcEnc zero) { bounded 1 [.word 1] with params := { (bounded 1 [.word 1]).params with maxItems := none } })
      (fun t => decide (1 < t.dout.length)) = true ∧
    leaves (exec (.bcDec ⟨0, 0, 1, 0⟩)
      { bounded 1 [.byte 1] with params := { (bounded 1 [.byte 1]).params with maxItems := none } })
      (fun t => decide (t.dout.length ≤ 1)) = true := by decide

theorem witness_OnlyScalarOperationsWriteRes : leaves (exec (.rmSizeof zero) (withA [])) (fun t => t.res != 0) = true ∧
    leaves (exec (.wcEnc zero) State.reset) (fun t => t.res == 0) = true := by decide

theorem witness_TableAndStreamHaveOneWriter : Instr.rmEnc ∈ operations ∧
    leaves (exec (.rmEnc zero) (withA (recordA.map .val))) (fun _ => true) = true ∧ Instr.rmEnc zero ≠ .rmLayout zero :=
  ⟨mem_operations.1, by decide⟩

theorem witness_UnreadFieldsAreIgnored :
    agreeOn true false false false ⟨5, 0, 0, 0⟩ ⟨5, 0xffff, 0xffff, 0xffff⟩ ∧
      agreeOn false false true false ⟨5, 0, 3, 0⟩ ⟨6, 1, 3, 1⟩ ∧ agreeOn false false false true ⟨5, 0, 3, 9⟩ ⟨6, 1, 2, 9⟩ := by
  simp [agreeOn]

theorem witness_ResultsOfThePastDoNotMatter : Instr.dtKind ∈ operations ∧ Instr.dtKind zero ≠ .rdRecv zero :=
  ⟨mem_operations.2.1, by decide⟩

theorem witness_IssuedWordReadsBack :
    Issues (hostDoes (.issue 0x7766554433221120 [])) 0x7766554433221120 [] [] [] ∧
    (hostDoes (.issue 0x7766554433221120 [])).busy = false ∧
    ((0x7766554433221120 : CmdWord).extractLsb' 0 8).toNat ∈ opCodes ∧
    leaves (step (hostDoes (.issue 0x7766554433221120 []))) (fun t => t.readCommand == 0x7766554433221120) = true := by decide

theorem witness_ResetAbandonsWhateverRuns :
    ({ receiving [7] .stillOpen with hostQ := [.reset], sched := [.host] } : State).hostQ = .reset :: [] ∧
    ({ receiving [7] .stillOpen with hostQ := [.reset], sched := [.host] } : State).sched = .host :: [] := by decide

theorem witness_StepRunsTheDecodedInstruction :
    (hostDoes (.issue 0x0511 [])).sched = .host :: [] ∧ (hostDoes (.issue 0x0511 [])).hostQ = .issue 0x0511 [] :: [] ∧
    (hostDoes (.issue 0x0511 [])).busy = false ∧ reads (.command 0x0511) = some (.dtCode ⟨5, 0, 0, 0⟩) ∧
    (hostDoes (.send [0x50, 0, 0, 0xff, 0xff, 3, 0, 6, 0, 0, 0, 0x17, 0x16, 0, 0])).hostQ =
      .send [0x50, 0, 0, 0xff, 0xff, 3, 0, 6, 0, 0, 0, 0x17, 0x16, 0, 0] :: [] ∧
    reads (.outbound [0x50, 0, 0, 0xff, 0xff, 3, 0, 6, 0, 0, 0, 0x17, 0x16, 0, 0]) = some (.reqSelftest 0 []) ∧
    (wireDoes (.append emptyResponse)).sched = .transport :: [] ∧
    (wireDoes (.append emptyResponse)).wireQ = .append emptyResponse :: [] ∧
    (wireDoes (.append emptyResponse)).rxTerm = .stillOpen ∧
    reads (.inbound emptyResponse) = some (.respD0 [0, 0, 0, 0, 0, 0] [0, 0]) := by decide

theorem witness_DecodeOfEncode : (Instr.reqWrite .bit 1 2 3 [4]).wf = true ∧
    (Instr.respD4 (List.replicate 10 0) []).wf = true := by decide

theorem witness_EncodeOfDecode : reads (.command 0x63) = some (.rmEnc zero) ∧
    reads (.inbound emptyResponse) = some (.respD0 [0, 0, 0, 0, 0, 0] [0, 0]) := by decide

theorem witness_EveryStepKeepsTheStateSound :
    ({ withA (recordA.map .val) with hostQ := [.issue 0x63 (recordA.map .val)], sched := [.host] } : State).sound = true ∧
    leaves (step { withA (recordA.map .val) with hostQ := [.issue 0x63 (recordA.map .val)], sched := [.host] })
      (fun t => t.sound && t.olen == 10) = true ∧
    (receiving [0xd0] .stillOpen).sound = true ∧
    leaves (step { receiving [0xd0] .stillOpen with sched := [.block] }) (fun t => t.sound) = true := by decide

theorem witness_SoundRunsNeverFault : (receiving [0xd0] .stillOpen).sound = true := by decide

theorem witness_ParametersNeverChange : leaves (step (hostDoes .reset)) (fun _ => true) = true ∧
    leaves (step (wireDoes (.close .eof))) (fun _ => true) = true := by decide

theorem witness_TransportOnlyAppendsOrCloses : (wireDoes (.append [1])).sched = .transport :: [] ∧
    (wireDoes (.append [1])).rxTerm = .stillOpen ∧ (wireDoes (.append [1])).wireQ = .append [1] :: [] ∧
    (wireDoes (.close .eof)).wireQ = .close .eof :: [] ∧ (wireDoes (.close .ioError)).wireQ = .close .ioError :: [] ∧
    ({ wireDoes (.append [1]) with rxTerm := .eof } : State).rxTerm ≠ .stillOpen ∧ State.reset.wireQ = [] := by decide

theorem witness_ReadWordReturnsTheStationsWords : State.reset.busy = false ∧ State.reset.params.maxItems = none ∧
    State.reset.rxBytes = [] ∧ State.reset.rxTerm = .stillOpen ∧
    State.reset.params.devtab[(5 : Byte).toNat]? = some ⟨0xa8, .word⟩ ∧ (⟨0xa8, .word⟩ : DevRow).kind = .word ∧
    (2 : Word).toNat ≤ State.reset.params.maxCount ∧ [0, 0, 0xff, 0xff, 3, 0].length = 6 ∧
    [1, 2, 0, 0, 0, 0, 0xff, 0xff, 3, 0].length = 10 ∧
    2 * [0x1234, 0x5678].length + 2 ≤ State.reset.params.maxBody := by decide

theorem witness_GuardComesBeforeAnyIo : Conn.connecting ≠ .connected ∧ Conn.disconnected ≠ .connected ∧
    State.reset.busy = false ∧ State.reset.params.maxItems = none ∧
    State.reset.params.devtab[(2 : Byte).toNat]? = some ⟨0x90, .bit⟩ ∧
    State.reset.params.devtab[(5 : Byte).toNat]? = some ⟨0xa8, .word⟩ ∧
    [(0x000506 : Descriptor)].length ≤ State.reset.params.maxFields ∧
    [(0x000506 : Descriptor)].map Claims.entryFor = [(⟨.string, 5, 3⟩ : LtEntry)].map some ∧
    Claims.wordsOf [⟨.string, 5, 3⟩] ≤ 0xFFFF := by decide

end Sys2Proof.Tests
end

section
/-! SUPPORT. What one instruction can do, said once for all twenty-two: how an operation ends in its issue step, and
what it leaves unchanged. The statements about the state elements (spec/10_state.md) are derived from these inversion
lemmas. -/

namespace Sys2Proof.Machine

open Claims

/-! ### How an operation ends in its issue step -/

/-- The four operations whose result is `RES` (spec/10_state.md R26). -/
inductive IsScalar : Instr → Prop
  | dtKind (f : CwFields) : IsScalar (.dtKind f)
  | dtCode (f : CwFields) : IsScalar (.dtCode f)
  | dtSubcmd (f : CwFields) : IsScalar (.dtSubcmd f)
  | rmSizeof (f : CwFields) : IsScalar (.rmSizeof f)

theorem isScalar_cases {i : Instr} (h : IsScalar i) :
    (∃ f, i = .dtKind f) ∨ (∃ f, i = .dtCode f) ∨ (∃ f, i = .dtSubcmd f) ∨ (∃ f, i = .rmSizeof f) := by
  cases h with
  | dtKind f => exact .inl ⟨f, rfl⟩
  | dtCode f => exact .inr (.inl ⟨f, rfl⟩)
  | dtSubcmd f => exact .inr (.inr (.inl ⟨f, rfl⟩))
  | rmSizeof f => exact .inr (.inr (.inr ⟨f, rfl⟩))

/-- An error the block writes to `STATUS`: a kind and sub-cause of the tables, with a nonzero `CODE` exactly for
RemoteStatusError (spec/60_exceptions.md R281, R282, R286). -/
abbrev Raised (k : ErrKind) (c : SubCause) (v : Word) : Prop :=
  (k, c) ∈ raisedPairs ∧ (v == 0) = (k != .remoteStatusError)

/-- A layout that `RM.LAYOUT` accepts (spec/45_record_marshaler.md R231). -/
structure Acceptable (maxFields : Nat) (es : List LtEntry) : Prop where
  length_le : es.length ≤ maxFields
  entries : ∀ e ∈ es, entrySound e = true
  words_le : layoutWords es ≤ 0xFFFF

/-- Everything the instruction `i` can make of the state `s` once its operand registers are loaded. -/
inductive Completes (s : State) (i : Instr) : State → Prop
  | error {k : ErrKind} {c : SubCause} (h : Raised k c 0) : Completes s i (s.complete k c 0)
  | data {out : List Item} (h : s.overCapacity out.length = false) : Completes s i (s.doneWith out)
  | scalar (h : IsScalar i) (v : Word) : Completes s i (s.finishRes v)
  | pending {f : CwFields} (h : i = .rdRecv f) : Completes s i { s with phase := .waitStart }
  | layout {f : CwFields} (h : i = .rmLayout f) {es : List LtEntry} (he : Acceptable s.params.maxFields es) :
      Completes s i ((s.clearLayout.setLayout es).doneWith [])
  | layoutError {f : CwFields} (h : i = .rmLayout f) {k : ErrKind} {c : SubCause} (hr : Raised k c 0) :
      Completes s i (s.clearLayout.complete k c 0)

/-- Whatever next state the outcome is, `i` completes with it. -/
def Ends (s : State) (i : Instr) (o : Out) : Prop := ∀ t, o = .next t → Completes s i t

section
variable {s : State} {i : Instr}

theorem Ends.next {t : State} (h : Completes s i t) : Ends s i (.next t) := by
  rintro _ ⟨⟩
  exact h

theorem Ends.error {k : ErrKind} {c : SubCause} (h : Raised k c 0) : Ends s i (.next (s.complete k c 0)) :=
  .next (.error h)

theorem Ends.finish (out : List Item) : Ends s i (.next (s.finish out)) := by
  obtain ⟨hc, he⟩ | ⟨-, he⟩ := finish_cases s out <;> rw [he]
  · exact .next (.data hc)
  · exact .error (by decide)

theorem Ends.ite {p : Prop} [Decidable p] {a b : Out} (ha : Ends s i a) (hb : Ends s i b) :
    Ends s i (if p then a else b) := by
  split
  · exact ha
  · exact hb

theorem Ends.withDin {α : Type} {as? : Item → Option α} {k : List α → Out} (h : ∀ xs, Ends s i (k xs)) :
    Ends s i (withDin as? s k) := by
  intro t ht
  obtain ⟨xs, -, hk⟩ := withDin_next ht
  exact h xs t hk

theorem Ends.withDevice {k : DevRow → Out} (h : ∀ row, Ends s i (k row)) : Ends s i (withDevice s k) := by
  intro t ht
  obtain ⟨row, -, hk⟩ | ⟨-, rfl⟩ := withDevice_next ht
  · exact h row t hk
  · exact .error (by decide)

theorem Ends.withLayout {k : Out} (h : Ends s i k) : Ends s i (withLayout s k) := by
  intro t ht
  obtain ⟨-, hk⟩ | ⟨-, rfl⟩ := withLayout_next ht
  · exact h t hk
  · exact .error (by decide)

theorem Ends.deliverFrame (frame : Option (List Byte)) : Ends s i (deliverFrame s frame) := by
  cases frame with
  | none => exact fun _ h => nomatch h
  | some bytes => exact .finish _

end

/-! ### The walks that choose an error -/

/-- `RM.ENC` stops with one of two sub-causes (spec/45_record_marshaler.md R240). -/
theorem recordEncode_error {es : List LtEntry} {vs : List FieldVal} {c : SubCause}
    (h : recordEncode es vs = .error c) : c = .fieldVariant ∨ c = .stringLength := by
  induction es, vs using recordEncode.induct with
  | case1 e es v vs hv => simp_all [recordEncode]
  | case2 e es v vs hv hl => simp_all [recordEncode]
  | case3 e es v vs hv hl ws hw ih => simp_all [recordEncode]
  | case4 e es v vs hv hl c hc ih => simp_all [recordEncode]
  | case5 es vs hne => simp_all [recordEncode]

/-- An entry takes the words of its field, which 16 bits count. -/
theorem entrySound_of_kind {k : FieldKind} {d : Word} (h : ¬(k = .string ∧ d = 0)) :
    entrySound ⟨k, if k = .string then d else 0, BitVec.ofNat 16 (fieldWidth k d)⟩ = true := by
  cases k <;> simp_all [entrySound, fieldWidth]

/-- An accepted descriptor list: one sound entry each, and no more words than 16 bits count. -/
theorem buildLayout_ok {total : Nat} {ds : List Descriptor} {es : List LtEntry} (ht : total ≤ 0xFFFF)
    (h : buildLayout total ds = .ok es) :
    es.length = ds.length ∧ (∀ e ∈ es, entrySound e = true) ∧ total + layoutWords es ≤ 0xFFFF := by
  induction ds generalizing total es with
  | nil =>
    cases h
    simpa [layoutWords] using ht
  | cons d ds ih =>
    simp only [buildLayout] at h
    split at h
    · cases h
    · next k hk =>
      split at h
      · cases h
      next hs =>
      split at h
      · cases h
      next hw =>
      split at h
      · next es' he =>
        cases h
        obtain ⟨hlen, hall, hsum⟩ := ih (by omega) he
        have hwidth : (BitVec.ofNat 16 (fieldWidth k (descClen d))).toNat = fieldWidth k (descClen d) := by
          rw [BitVec.toNat_ofNat]
          omega
        refine ⟨by simp [hlen], ?_, ?_⟩
        · simpa using ⟨entrySound_of_kind hs, hall⟩
        · simp only [layoutWords, List.map_cons, List.sum_cons, hwidth] at hsum ⊢
          omega
      · cases h

/-- The first descriptor that fails names an error of the tables (spec/45_record_marshaler.md R231, R233). -/
theorem buildLayout_error {total : Nat} {ds : List Descriptor} {e : ErrKind × SubCause}
    (h : buildLayout total ds = .error e) : Raised e.1 e.2 0 := by
  induction ds generalizing total e with
  | nil => cases h
  | cons d ds ih =>
    simp only [buildLayout] at h
    split at h
    · cases h
      decide
    split at h
    · cases h
      decide
    split at h
    · cases h
      decide
    split at h
    · cases h
    next he =>
    cases h
    exact ih he

/-! ### The seventeen operations -/

/-- `x` is the operation `i` of `op` and `f`: it has a next state only from an idle block, and then it loads its
operands and completes. -/
def Operates (x : State → Out) (i : Instr) (op : Byte) (f : CwFields) : Prop :=
  ∀ s t, x s = .next t → s.busy = false ∧ Completes (s.loadOperands op f) i t

/-- An issued operation ends as its effect does. -/
theorem Operates.issue {i : Instr} {op : Byte} {f : CwFields} {k : State → Out} (hk : ∀ s, Ends s i (k s)) :
    Operates (fun s => issue op f s k) i op f := by
  intro s t h
  obtain ⟨hb, -, h⟩ := issue_next h
  exact ⟨hb, hk _ t h⟩

section
variable (f : CwFields)

theorem dtKind_operates : Operates (execDtKind f) (.dtKind f) 0x10 f :=
  .issue fun _ => .withDevice fun _ => .next (.scalar (.dtKind f) _)

theorem dtCode_operates : Operates (execDtCode f) (.dtCode f) 0x11 f :=
  .issue fun _ => .withDevice fun _ => .next (.scalar (.dtCode f) _)

theorem dtSubcmd_operates : Operates (execDtSubcmd f) (.dtSubcmd f) 0x12 f :=
  .issue fun _ => .withDevice fun _ => .next (.scalar (.dtSubcmd f) _)

theorem feRead_operates : Operates (execFeRead f) (.feRead f) 0x20 f :=
  .issue fun _ => .withDevice fun _ => .ite (.error (by decide)) (.deliverFrame _)

theorem feWrite_operates : Operates (execFeWrite f) (.feWrite f) 0x21 f :=
  .issue fun _ => .withDin fun _ => .withDevice fun _ =>
    .ite (.error (by decide)) (.ite (.error (by decide)) (.deliverFrame _))

theorem feSelftest_operates : Operates (execFeSelftest f) (.feSelftest f) 0x22 f :=
  .issue fun _ => .deliverFrame _

theorem rdRecv_operates : Operates (execRdRecv f) (.rdRecv f) 0x30 f :=
  .issue fun _ => .next (.pending rfl)

theorem bcEnc_operates : Operates (execBcEnc f) (.bcEnc f) 0x40 f :=
  .issue fun _ => .withDin fun _ => .finish _

theorem bcDec_operates : Operates (execBcDec f) (.bcDec f) 0x41 f :=
  .issue fun _ => .withDin fun _ => .ite (.error (by decide)) (.finish _)

theorem wcEnc_operates : Operates (execWcEnc f) (.wcEnc f) 0x50 f :=
  .issue fun _ => .withDin fun _ => .finish _

theorem wcDec_operates : Operates (execWcDec f) (.wcDec f) 0x51 f :=
  .issue fun _ => .withDin fun _ => .ite (.error (by decide)) (.finish _)

theorem wcSenc_operates : Operates (execWcSenc f) (.wcSenc f) 0x52 f :=
  .issue fun _ => .withDin fun _ => .finish _

theorem wcSdec_operates : Operates (execWcSdec f) (.wcSdec f) 0x53 f :=
  .issue fun _ => .withDin fun _ =>
    .ite (.error (by decide)) (.ite (.error (by decide)) (.finish _))

theorem rmLayout_operates : Operates (execRmLayout f) (.rmLayout f) 0x60 f := by
  refine .issue fun s => .withDin fun ds => ?_
  dsimp only
  split
  · exact .next (.layoutError rfl (by decide))
  · next hle =>
    split
    · next es he =>
      obtain ⟨hlen, hall, hsum⟩ := buildLayout_ok (Nat.zero_le _) he
      have hmax : ds.length ≤ s.params.maxFields := Nat.le_of_not_lt hle
      exact .next (.layout rfl ⟨by omega, hall, by omega⟩)
    · next e he => exact .next (.layoutError rfl (buildLayout_error he))

theorem rmSizeof_operates : Operates (execRmSizeof f) (.rmSizeof f) 0x61 f :=
  .issue fun _ => .withLayout (.next (.scalar (.rmSizeof f) _))

theorem rmDec_operates : Operates (execRmDec f) (.rmDec f) 0x62 f :=
  .issue fun _ => .withDin fun _ => .withLayout (.ite (.error (by decide)) (.finish _))

theorem rmEnc_operates : Operates (execRmEnc f) (.rmEnc f) 0x63 f := by
  refine .issue fun s => .withDin fun vs => .withLayout (.ite (.error (by decide)) ?_)
  split
  · exact .finish _
  · next c hc =>
    obtain rfl | rfl := recordEncode_error hc
    · exact .error (by decide)
    · exact .error (by decide)

end

/-! ### One instruction -/

/-- Everything the instruction `i` can make of the state `s`: an operation completes, an outbound frame is sent, an
inbound frame arrives. -/
inductive Executes (s : State) (i : Instr) : State → Prop
  | operation {op : Byte} {f : CwFields} {t : State} (hi : encode i = .command (encodeCw op f))
      (hb : s.busy = false) (ht : Completes (s.loadOperands op f) i t) : Executes s i t
  | sends {bs : List Byte} (hi : encode i = .outbound bs) : Executes s i (s.send bs)
  | arrives {bs : List Byte} (hi : encode i = .inbound bs) : Executes s i (s.receive bs)

theorem Operates.executes {x : State → Out} {i : Instr} {op : Byte} {f : CwFields} {s t : State}
    (hx : Operates x i op f) (hi : encode i = .command (encodeCw op f)) (h : x s = .next t) : Executes s i t :=
  .operation hi (hx s t h).1 (hx s t h).2

theorem arrive_next {bs : List Byte} {s t : State} (h : arrive bs s = .next t) : t = s.receive bs := by
  unfold arrive at h
  split at h
  · cases h
    rfl
  · cases h

/-- What each instruction can do, for all twenty-two. -/
theorem exec_next {i : Instr} {s t : State} (h : exec i s = .next t) : Executes s i t := by
  cases i with
  | dtKind f => exact (dtKind_operates f).executes rfl h
  | dtCode f => exact (dtCode_operates f).executes rfl h
  | dtSubcmd f => exact (dtSubcmd_operates f).executes rfl h
  | feRead f => exact (feRead_operates f).executes rfl h
  | feWrite f => exact (feWrite_operates f).executes rfl h
  | feSelftest f => exact (feSelftest_operates f).executes rfl h
  | rdRecv f => exact (rdRecv_operates f).executes rfl h
  | bcEnc f => exact (bcEnc_operates f).executes rfl h
  | bcDec f => exact (bcDec_operates f).executes rfl h
  | wcEnc f => exact (wcEnc_operates f).executes rfl h
  | wcDec f => exact (wcDec_operates f).executes rfl h
  | wcSenc f => exact (wcSenc_operates f).executes rfl h
  | wcSdec f => exact (wcSdec_operates f).executes rfl h
  | rmLayout f => exact (rmLayout_operates f).executes rfl h
  | rmSizeof f => exact (rmSizeof_operates f).executes rfl h
  | rmDec f => exact (rmDec_operates f).executes rfl h
  | rmEnc f => exact (rmEnc_operates f).executes rfl h
  | reqRead k a c n =>
    cases h
    exact .sends rfl
  | reqWrite k a c n p =>
    simp only [exec, execReqWrite] at h
    split at h
    · cases h
      exact .sends rfl
    · cases h
  | reqSelftest u d =>
    simp only [exec, execReqSelftest] at h
    split at h
    · cases h
      exact .sends rfl
    · cases h
  | respD0 r b =>
    simp only [exec, execRespD0] at h
    split at h
    · rw [arrive_next h]
      exact .arrives rfl
    · cases h
  | respD4 r b =>
    simp only [exec, execRespD4] at h
    split at h
    · rw [arrive_next h]
      exact .arrives rfl
    · cases h

/-- Each of the seventeen constructors is a command of one `OP` code, issued on the command port. -/
theorem operations_issue {mk : CwFields → Instr} (h : mk ∈ operations) (f : CwFields) :
    ∃ op k, encode (mk f) = .command (encodeCw op f) ∧ ∀ s, exec (mk f) s = issue op f s k := by
  simp only [operations, List.mem_cons, List.not_mem_nil, or_false] at h
  rcases h with rfl | rfl | rfl | rfl | rfl | rfl | rfl | rfl | rfl | rfl | rfl | rfl | rfl | rfl | rfl | rfl | rfl
  all_goals exact ⟨_, _, rfl, fun s => by simp only [exec]; rfl⟩

/-- A command word has one `OP` and one set of operand fields. -/
theorem encodeCw_inj {op op' : Byte} {f f' : CwFields} (h : encodeCw op f = encodeCw op' f') : op = op' ∧ f = f' := by
  have hop := congrArg cwOp h
  have hf := congrArg cwFields h
  rw [cwOp_encodeCw, cwOp_encodeCw] at hop
  rw [cwFields_encodeCw, cwFields_encodeCw] at hf
  exact ⟨hop, hf⟩

/-- An operation only completes: it sends and receives nothing. -/
theorem operation_next {mk : CwFields → Instr} {f : CwFields} {s t : State} (hmk : mk ∈ operations)
    (h : exec (mk f) s = .next t) :
    ∃ op, encode (mk f) = .command (encodeCw op f) ∧ Completes (s.loadOperands op f) (mk f) t := by
  obtain ⟨op, k, hcode, -⟩ := operations_issue hmk f
  cases exec_next h with
  | operation hi _ ht =>
    obtain ⟨rfl, rfl⟩ := encodeCw_inj (Code.command.inj (hi.symm.trans hcode))
    exact ⟨_, hi, ht⟩
  | sends hi => exact absurd (hcode.symm.trans hi) Code.noConfusion
  | arrives hi => exact absurd (hcode.symm.trans hi) Code.noConfusion

/-! ### What an instruction leaves unchanged -/

/-- A completion leaves the operand registers, `DIN`, the inbound stream and the parameters as they are. -/
theorem completes_frame {s t : State} {i : Instr} (h : Completes s i t) :
    t.readCommand = s.readCommand ∧ t.din = s.din ∧ t.rxBytes = s.rxBytes ∧ t.rxTerm = s.rxTerm ∧
      t.params = s.params := by
  cases h <;> exact ⟨rfl, rfl, rfl, rfl, rfl⟩

/-- Only `RM.LAYOUT` completes with another layout table. -/
theorem completes_table {s t : State} {i : Instr} (h : Completes s i t) (hi : ∀ f, i ≠ .rmLayout f) :
    t.ltValid = s.ltValid ∧ t.ltN = s.ltN ∧ t.ltSize = s.ltSize ∧ t.ltF = s.ltF := by
  cases h with
  | layout h _ => exact absurd h (hi _)
  | layoutError h _ => exact absurd h (hi _)
  | error _ => exact ⟨rfl, rfl, rfl, rfl⟩
  | data _ => exact ⟨rfl, rfl, rfl, rfl⟩
  | scalar _ _ => exact ⟨rfl, rfl, rfl, rfl⟩
  | pending _ => exact ⟨rfl, rfl, rfl, rfl⟩

theorem exec_params {s t : State} {i : Instr} (h : exec i s = .next t) : t.params = s.params := by
  cases exec_next h with
  | operation _ _ ht =>
    obtain ⟨-, -, -, -, hparams⟩ := completes_frame ht
    exact hparams
  | sends _ => rfl
  | arrives _ => rfl

end Sys2Proof.Machine
end

section
/-! SUPPORT. What one step can do, whoever moves: a continuation of `RD.RECV`, the transport's bytes, an
accepted issue. -/

namespace Sys2Proof.Machine

open Claims

/-! ### Continuations of `RD.RECV` -/

/-- Everything a continuation step can make of the state `s`, the bytes it leaves in `RX` apart
(spec/42_response_decoder.md R173 to R175). -/
inductive Continues (s : State) : State → Prop
  | started (bs : List Byte) {n : BitVec 4} (hn : n = 8 ∨ n = 12) (h : s.phase = .waitStart) :
      Continues s { s with rxBytes := bs, shl := n, phase := .waitSubhdr }
  | measured (bs : List Byte) (l : Word) (h : s.phase = .waitSubhdr) :
      Continues s { s with rxBytes := bs, blen := l, phase := .waitBody }
  | delivered (bs : List Byte) {out : List Item} (h : s.overCapacity out.length = false) :
      Continues s ({ s with rxBytes := bs }.doneWith out)
  | failed (bs : List Byte) {k : ErrKind} {c : SubCause} {v : Word} (h : Raised k c v) :
      Continues s ({ s with rxBytes := bs }.complete k c v)

/-- A pull either runs the phase's work on its bytes or ends the operation with TransportIo. -/
theorem pullThen_continues {n : Nat} {s t : State} {k : List Byte → State → State}
    (hk : ∀ got left, Continues s (k got { s with rxBytes := left }))
    (h : pullThen (rxReadExact n s) k = some t) : Continues s t := by
  obtain ⟨-, rfl⟩ | ⟨-, c, rfl | rfl, rfl⟩ := pullThen_some h
  · exact hk _ _
  · exact .failed [] (by decide)
  · exact .failed [] (by decide)

theorem onStart_continues {s : State} (h : s.phase = .waitStart) (got left : List Byte) :
    Continues s (onStart got { s with rxBytes := left }) := by
  unfold onStart
  dsimp only
  split
  · exact .started left (.inl rfl) h
  · split
    · exact .started left (.inr rfl) h
    · exact .failed left (by decide)

theorem onSubhdr_continues {s : State} (h : s.phase = .waitSubhdr) (got left : List Byte) :
    Continues s (onSubhdr got { s with rxBytes := left }) :=
  .measured left _ h

theorem onBody_continues (s : State) (got left : List Byte) :
    Continues s (onBody got { s with rxBytes := left }) := by
  unfold onBody
  dsimp only
  split
  · exact .failed left (by decide)
  · split
    · exact .failed left (by decide)
    · split
      · next hst =>
        have hcode : (un16 (got.getD 0 0) (got.getD 1 0) == 0) = false := by simpa using hst
        exact .failed left ⟨by decide, hcode⟩
      · obtain ⟨hc, he⟩ | ⟨-, he⟩ := finish_cases { s with rxBytes := left } ((got.drop 2).map .byte) <;> rw [he]
        · exact .delivered left hc
        · exact .failed left (by decide)

/-- What the block's own step can do. -/
theorem recvStep_some {s t : State} (h : recvStep s = some t) : Continues s t := by
  unfold recvStep at h
  split at h
  · cases h
  · next hp => exact pullThen_continues (onStart_continues hp) h
  · next hp => exact pullThen_continues (onSubhdr_continues hp) h
  · exact pullThen_continues (onBody_continues s) h

theorem continues_params {s t : State} (h : Continues s t) : t.params = s.params := by
  cases h <;> rfl

/-! ### Frames on the inbound side -/

/-- The two parts of a response make its bytes again, and are as long as its form asks (spec/30_encoding.md R100 to
R102). -/
theorem splitResponse_ok {n : Nat} {rest routing body : List Byte}
    (h : splitResponse n rest = .ok (routing, body)) :
    routingFits n routing = true ∧ bodyFits body = true ∧
      routing ++ le16 (BitVec.ofNat 16 body.length) ++ body = rest := by
  unfold splitResponse at h
  split at h
  · next l0 l1 _ hdrop =>
    split at h
    · next hlen =>
      cases h
      have hl : (rest.drop (n - 2)).length = body.length + 2 := by rw [hdrop]; rfl
      rw [List.length_drop] at hl
      have hw := (un16 l0 l1).isLt
      refine ⟨?_, ?_, ?_⟩
      · simp only [routingFits, List.length_take, beq_iff_eq]
        omega
      · simp only [bodyFits, decide_eq_true_eq]
        omega
      · rw [hlen, BitVec.ofNat_toNat, BitVec.setWidth_eq, le16_un16, List.append_assoc]
        exact (congrArg (rest.take (n - 2) ++ ·) hdrop.symm).trans (List.take_append_drop _ _)
    · cases h
  · cases h

/-- Whatever the inbound side reads arrives as it is on an open stream (spec/10_state.md R33). -/
theorem exec_of_decodeInbound {bs : List Byte} {i : Instr} {s : State} (h : decodeInbound bs = .ok i)
    (ho : s.rxTerm = .stillOpen) : exec i s = .next (s.receive bs) := by
  unfold decodeInbound at h
  split at h
  · cases h
  next b rest =>
  split at h
  · next hb =>
    split at h
    · next routing body hs =>
      cases h
      obtain ⟨hr, hf, he⟩ := splitResponse_ok hs
      simp [exec, execRespD0, hr, hf, arrive, ho, encodeResponse, he, hb]
    · cases h
  split at h
  · next hb =>
    split at h
    · next routing body hs =>
      cases h
      obtain ⟨hr, hf, he⟩ := splitResponse_ok hs
      simp [exec, execRespD4, hr, hf, arrive, ho, encodeResponse, he, hb]
    · cases h
  · cases h

/-- Framed or not, the transport's bytes are appended as they are. -/
theorem appendStep_open {bs : List Byte} {s : State} (ho : s.rxTerm = .stillOpen) :
    appendStep bs s = .next (s.receive bs) := by
  unfold appendStep
  split
  · next hi => exact exec_of_decodeInbound hi ho
  · rfl

/-! ### Command words -/

/-- The decoder of command words is the other side of the encoder. -/
theorem opInstr_some {op : Byte} {f : CwFields} {i : Instr} (h : opInstr op f = some i) :
    encode i = .command (encodeCw op f) := by
  unfold opInstr at h
  split at h
  case h_18 => cases h
  all_goals
    next hop =>
    cases h
    rw [← BitVec.setWidth_eq op, ← BitVec.ofNat_toNat, hop]
    rfl

theorem opInstr_none {op : Byte} {f : CwFields} (h : opInstr op f = none) : op.toNat ∉ opCodes := by
  unfold opInstr at h
  split at h <;> simp_all [opCodes]

theorem decodeCommand_ok {cw : CmdWord} {i : Instr} (h : decodeCommand cw = .ok i) : encode i = .command cw := by
  unfold decodeCommand at h
  split at h
  · next hi =>
    cases h
    rw [opInstr_some hi, encodeCw_fields]
  · cases h

theorem decodeCommand_error {cw : CmdWord} {e : DecodeError} (h : decodeCommand cw = .error e) :
    (cw.extractLsb' 0 8).toNat ∉ opCodes := by
  unfold decodeCommand at h
  split at h
  · cases h
  · next hi => exact opInstr_none hi

/-! ### One step -/

/-- The state without what the host and the transport hold or change by themselves: the queues, the schedule, the sent
bytes, `DIN` and the inbound stream. -/
def State.block (s : State) : State :=
  { s with din := [], rxBytes := [], rxTerm := .stillOpen, tx := [], hostQ := [], wireQ := [], sched := [] }

/-- Everything a step can make of the state `s`: only what the other agents hold changes, or an instruction is
executed, an undefined `OP` completes, the block is reset, or `RD.RECV` goes on. -/
inductive Moves (s : State) : State → Prop
  | others {t : State} (h : t.block = s.block) : Moves s t
  | executes {u t : State} {i : Instr} (hu : u.block = s.block) (h : exec i u = .next t) : Moves s t
  | illegal {u : State} (hu : u.block = s.block) : Moves s (u.complete .illegalOp .none 0)
  | resets {u : State} (hu : u.block = s.block) : Moves s u.resetBlock
  | continues {u t : State} (hu : u.block = s.block) (h : recvStep u = some t) : Moves s t

theorem Moves.of_block {s u t : State} (h : Moves u t) (hu : u.block = s.block) : Moves s t := by
  cases h with
  | others h => exact .others (h.trans hu)
  | executes hv h => exact .executes (hv.trans hu) h
  | illegal hv => exact .illegal (hv.trans hu)
  | resets hv => exact .resets (hv.trans hu)
  | continues hv h => exact .continues (hv.trans hu) h

theorem issueStep_moves {cw : CmdWord} {din : List Item} {rest : List HostAct} {s t : State}
    (h : issueStep cw din rest s = .next t) : Moves s t := by
  unfold issueStep at h
  split at h
  · cases h
    exact .others rfl
  · split at h
    · exact .executes (u := { s with hostQ := rest, din := din }) rfl h
    · cases h
      exact .illegal (u := { s with hostQ := rest }) rfl

/-- An accepted issue of a defined `OP` executes what the command word decodes to. -/
theorem issueStep_defined {cw : CmdWord} {din : List Item} {rest : List HostAct} {s t : State} (hb : s.busy = false)
    (hop : (cw.extractLsb' 0 8).toNat ∈ opCodes) (h : issueStep cw din rest s = .next t) :
    ∃ i, decodeCommand cw = .ok i ∧ exec i { s with hostQ := rest, din := din } = .next t := by
  unfold issueStep at h
  rw [if_neg (by simp [hb])] at h
  split at h
  · next i hi => exact ⟨i, hi, h⟩
  · next hi => exact absurd hop (decodeCommand_error hi)

theorem sendStep_moves {bs : List Byte} {s t : State} (h : sendStep bs s = .next t) : Moves s t := by
  unfold sendStep at h
  split at h
  · exact .executes rfl h
  · cases h
    exact .others rfl

theorem hostStep_moves {s t : State} (h : hostStep s = .next t) : Moves s t := by
  unfold hostStep at h
  split at h
  · cases h
    exact .others rfl
  · exact issueStep_moves h
  · exact (sendStep_moves h).of_block rfl
  · cases h
    exact .resets rfl
  · cases h
    exact .others rfl
  · cases h
    exact .others rfl

theorem blockStep_moves {s t : State} (h : blockStep s = .next t) : Moves s t := by
  unfold blockStep at h
  split at h
  · next hr =>
    cases h
    exact .continues rfl hr
  · cases h
    exact .others rfl

theorem transportStep_moves {s t : State} (h : transportStep s = .next t) : Moves s t := by
  unfold transportStep at h
  split at h
  · next ho =>
    split at h
    · cases h
      exact .others rfl
    · rw [appendStep_open (by exact ho)] at h
      cases h
      exact .others rfl
    · cases h
      exact .others rfl
  · cases h
    exact .others rfl

theorem agentStep_moves {a : Agent} {s t : State} (h : agentStep a s = .next t) : Moves s t := by
  cases a with
  | host => exact hostStep_moves h
  | block => exact blockStep_moves h
  | transport => exact transportStep_moves h

/-- The agent that the schedule names is the one that moves. -/
theorem step_scheduled {a : Agent} {s : State} {later : List Agent} (h : s.sched = a :: later) :
    step s = agentStep a { s with sched := later } := by
  rw [step, oneStep, h]

/-- What one step can do, whoever moves. -/
theorem step_next {s t : State} (h : step s = .next t) : Moves s t := by
  unfold step oneStep at h
  split at h
  · exact (agentStep_moves h).of_block rfl
  · split at h
    · exact agentStep_moves h
    · cases h
      exact .others rfl

end Sys2Proof.Machine
end

section
/-! SUPPORT. Where an operation stops, and under which name. -/

namespace Sys2Proof.Machine

open Claims

/-! ### Where an operation stops -/

theorem issue_dinTooLong {op : Byte} {f : CwFields} {s : State} {k : State → Out} (hb : s.busy = false)
    (hd : s.overCapacity s.din.length = true) : issue op f s k = .refused .dinTooLong := by
  simp [issue, hb, hd]

/-- One item of another type is enough. -/
theorem itemsAs_none {α : Type} {as? : Item → Option α} {x : Item} {xs : List Item} (hx : x ∈ xs)
    (hn : as? x = none) : itemsAs as? xs = none := by
  induction xs with
  | nil => cases hx
  | cons y ys ih =>
    cases hx with
    | head => simp [itemsAs, hn]
    | tail _ hx =>
      rw [itemsAs, ih hx]
      cases as? y <;> rfl

/-- An operation that reads `DIN` stops at an item of another type. -/
theorem issue_dinItemType {α : Type} {as? : Item → Option α} {op : Byte} {f : CwFields} {s : State} {x : Item}
    {k : State → List α → Out} (hb : s.busy = false) (hd : s.overCapacity s.din.length = false) (hx : x ∈ s.din)
    (hn : as? x = none) : issue op f s (fun u => withDin as? u (k u)) = .refused .dinItemType := by
  have hnone : itemsAs as? (s.loadOperands op f).din = none := itemsAs_none hx hn
  rw [issue_ready hb hd, withDin, hnone]

theorem req_none {cmd sub : Word} {data : List Byte} (h : 0xFFFF < 6 + data.length) : req cmd sub data = none :=
  if_neg (by omega)

theorem dev6_length (row : DevRow) (addr count : Word) : (dev6 row addr count).length = 6 := rfl

/-- Self-test data that no length field counts makes no frame. -/
theorem execFeSelftest_frameUndefined {f : CwFields} {s : State} (hb : s.busy = false)
    (hd : s.overCapacity s.din.length = false) (h : 65529 < s.params.stData.length) :
    execFeSelftest f s = .fault .frameUndefined := by
  have hreq : req Config.cmdSelftest s.params.stSub s.params.stData = none := req_none (by omega)
  rw [execFeSelftest, issue_ready hb hd, State.loadOperands_params, hreq, deliverFrame]

/-- A payload within the port's limits that no length field counts makes no frame. -/
theorem execFeWrite_frameUndefined {f : CwFields} {s : State} {row : DevRow} {payload : List Byte}
    (hb : s.busy = false) (hd : s.overCapacity s.din.length = false)
    (hrow : s.params.devtab[f.dev.toNat]? = some row) (hdin : s.din = bytes payload)
    (hcount : f.count.toNat ≤ s.params.maxCount) (hmax : payload.length ≤ s.params.maxPayload)
    (hlong : 65523 < payload.length) : execFeWrite f s = .fault .frameUndefined := by
  have hitems : itemsAs Item.byte? (s.loadOperands 0x21 f).din = some payload := by
    rw [State.loadOperands_din, hdin, itemsAs_bytes]
  have hreq : req Config.cmdWrite (subcommand row.kind) (dev6 row f.addr f.count ++ payload) = none := by
    refine req_none ?_
    rw [List.length_append, dev6_length]
    omega
  rw [execFeWrite, issue_ready hb hd, withDin_some hitems, withDevice_some (by exact hrow),
    if_neg (by exact Nat.not_lt.mpr hcount), if_neg (by exact Nat.not_lt.mpr hmax), State.loadOperands_addr,
    State.loadOperands_count, hreq, deliverFrame]

/-- A response term with another number of ignored bytes or too long a body has no encoding. -/
theorem responseFits_false {n : Nat} {routing body : List Byte}
    (h : routing.length ≠ n - 2 ∨ 65535 < body.length) : ¬(routingFits n routing && bodyFits body) = true := by
  simp only [routingFits, bodyFits, Bool.and_eq_true, beq_iff_eq, decide_eq_true_eq]
  omega

end Sys2Proof.Machine
end

section
/-! SUPPORT. What no instruction reads: `STATUS`, `RES`, `OLEN` and `DOUT` (spec/10_state.md R28). -/

namespace Sys2Proof.Machine

open Claims

/-! ### Results of the past -/

/-- The state with other values in `STATUS`, `RES`, `OLEN` and `DOUT`. -/
def State.withResults (st : BitVec 24) (v : Word) (n : BitVec 32) (out : List Item) (s : State) : State :=
  { s with status := st, res := v, olen := n, dout := out }

/-- The state without `RES`. -/
def State.withoutRes (s : State) : State := { s with res := 0 }

/-- The state without `STATUS`, `RES`, `OLEN` and `DOUT`. -/
def State.withoutResults (s : State) : State := { s with status := 0, res := 0, olen := 0, dout := [] }

/-- `q` reads nothing of `STATUS`, `RES`, `OLEN` and `DOUT`. -/
def IgnoresResults {α : Sort _} (q : State → α) : Prop := ∀ st v n out s, q (s.withResults st v n out) = q s

/-- Seen through `g`, the outcome of `x` does not depend on `STATUS`, `RES`, `OLEN` or `DOUT`. -/
def Blind (g : State → State) (x : State → Out) : Prop := IgnoresResults fun s => view g (x s)

section
variable {g : State → State}

theorem Blind.ite {p : State → Prop} [∀ s, Decidable (p s)] {a b : State → Out} (ha : Blind g a) (hb : Blind g b)
    (hp : IgnoresResults p := by intro _ _ _ _ _; rfl) : Blind g (fun s => if p s then a s else b s) := by
  intro st v n out s
  dsimp only
  have hps := hp st v n out s
  by_cases h : p s
  · rw [if_pos (hps.mpr h), if_pos h]
    exact ha st v n out s
  · rw [if_neg (fun hw => h (hps.mp hw)), if_neg h]
    exact hb st v n out s

/-- The checks of the port and the load of the operand registers read and write none of the four. -/
theorem Blind.issue {k : State → Out} {op : Byte} {f : CwFields} (h : Blind g k) :
    Blind g (fun s => issue op f s k) :=
  .ite (fun _ _ _ _ _ => rfl) (.ite (fun _ _ _ _ _ => rfl) fun st v n out s => h st v n out (s.loadOperands op f))

theorem Blind.withDin {α : Type} {as? : Item → Option α} {k : List α → State → Out} (h : ∀ xs, Blind g (k xs)) :
    Blind g (fun s => withDin as? s fun xs => k xs s) := by
  intro st v n out s
  dsimp only
  cases hx : itemsAs as? s.din with
  | none => simp only [Machine.withDin, State.withResults, hx]
  | some xs =>
    rw [withDin_some (by exact hx), withDin_some hx]
    exact h xs st v n out s

end

/-- What hides all four results hides them also where `RES` alone is hidden. -/
theorem Blind.withoutResults {x : State → Out} (h : Blind State.withoutRes x) : Blind State.withoutResults x := by
  have hview : ∀ o, view State.withoutResults o = view State.withoutResults (view State.withoutRes o) := by
    rintro (_ | _ | _) <;> rfl
  intro st v n out s
  dsimp only
  rw [hview, hview (x s)]
  exact congrArg _ (h st v n out s)

/-- A completion with an error leaves of the four only `RES`. -/
theorem Blind.error {k : ErrKind} {c : SubCause} : Blind .withoutRes (fun s => .next (s.complete k c 0)) :=
  fun _ _ _ _ _ => rfl

theorem Blind.scalar {v : State → Word} (hv : IgnoresResults v := by intro _ _ _ _ _; rfl) :
    Blind .withoutRes (fun s => .next (s.finishRes (v s))) := by
  intro st w n out s
  dsimp only
  rw [hv]
  rfl

theorem Blind.finish {data : State → List Item} (hd : IgnoresResults data := by intro _ _ _ _ _; rfl) :
    Blind .withoutRes (fun s => .next (s.finish (data s))) := by
  intro st v n out s
  dsimp only
  rw [hd, State.finish, State.finish, overCapacity_params (s := s) (t := s.withResults st v n out) rfl]
  split <;> rfl

theorem Blind.deliverFrame {frame : State → Option (List Byte)}
    (hf : IgnoresResults frame := by intro _ _ _ _ _; rfl) :
    Blind .withoutRes (fun s => deliverFrame s (frame s)) := by
  intro st v n out s
  dsimp only
  rw [hf]
  cases frame s with
  | none => rfl
  | some bs => exact Blind.finish (data := fun _ => bs.map .byte) (fun _ _ _ _ _ => rfl) st v n out s

theorem Blind.withDevice {k : DevRow → State → Out} (h : ∀ row, Blind .withoutRes (k row)) :
    Blind .withoutRes (fun s => withDevice s fun row => k row s) := by
  intro st v n out s
  dsimp only
  cases hr : s.device s.dev with
  | none =>
    rw [withDevice_none (by exact hr), withDevice_none hr]
    rfl
  | some row =>
    rw [withDevice_some (by exact hr), withDevice_some hr]
    exact h row st v n out s

theorem Blind.withLayout {k : State → Out} (h : Blind .withoutRes k) :
    Blind .withoutRes (fun s => withLayout s (k s)) :=
  .ite h .error

section
variable (f : CwFields)

theorem dtKind_blind : Blind .withoutRes (execDtKind f) := .issue <| .withDevice fun _ => .scalar

theorem dtCode_blind : Blind .withoutRes (execDtCode f) := .issue <| .withDevice fun _ => .scalar

theorem dtSubcmd_blind : Blind .withoutRes (execDtSubcmd f) := .issue <| .withDevice fun _ => .scalar

theorem feRead_blind : Blind .withoutRes (execFeRead f) :=
  .issue <| .withDevice fun _ => .ite .error .deliverFrame

theorem feWrite_blind : Blind .withoutRes (execFeWrite f) :=
  .issue <| .withDin fun _ => .withDevice fun _ => .ite .error (.ite .error .deliverFrame)

theorem feSelftest_blind : Blind .withoutRes (execFeSelftest f) := .issue .deliverFrame

theorem bcEnc_blind : Blind .withoutRes (execBcEnc f) := .issue <| .withDin fun _ => .finish

theorem bcDec_blind : Blind .withoutRes (execBcDec f) := .issue <| .withDin fun _ => .ite .error .finish

theorem wcEnc_blind : Blind .withoutRes (execWcEnc f) := .issue <| .withDin fun _ => .finish

theorem wcDec_blind : Blind .withoutRes (execWcDec f) := .issue <| .withDin fun _ => .ite .error .finish

theorem wcSenc_blind : Blind .withoutRes (execWcSenc f) := .issue <| .withDin fun _ => .finish

theorem wcSdec_blind : Blind .withoutRes (execWcSdec f) :=
  .issue <| .withDin fun _ => .ite .error (.ite .error .finish)

theorem rmLayout_blind : Blind .withoutRes (execRmLayout f) :=
  .issue <| .withDin fun ds => .ite (fun _ _ _ _ _ => rfl) fun _ _ _ _ _ => by
    cases buildLayout 0 ds <;> rfl

theorem rmSizeof_blind : Blind .withoutRes (execRmSizeof f) := .issue <| .withLayout .scalar

theorem rmDec_blind : Blind .withoutRes (execRmDec f) :=
  .issue <| .withDin fun _ => .withLayout <| .ite .error .finish

theorem rmEnc_blind : Blind .withoutRes (execRmEnc f) := by
  refine .issue <| .withDin fun vs => .withLayout <| .ite .error fun st v n out s => ?_
  have hlayout : (s.withResults st v n out).layout = s.layout := rfl
  dsimp only
  rw [hlayout]
  cases recordEncode s.layout vs with
  | ok ws => exact Blind.finish (data := fun _ => ws.map .word) (fun _ _ _ _ _ => rfl) st v n out s
  | error c => rfl

/-- The issue step of `RD.RECV` keeps all four. -/
theorem rdRecv_blind : Blind .withoutResults (execRdRecv f) := .issue fun _ _ _ _ _ => rfl

end

/-- Of the operations only `RD.RECV` keeps `STATUS`, `OLEN` and `DOUT` in its issue step. -/
theorem operation_blind {mk : CwFields → Instr} {f : CwFields} (hmk : mk ∈ operations) (hne : mk f ≠ .rdRecv f) :
    Blind .withoutRes (exec (mk f)) := by
  simp only [operations, List.mem_cons, List.not_mem_nil, or_false] at hmk
  rcases hmk with rfl | rfl | rfl | rfl | rfl | rfl | rfl | rfl | rfl | rfl | rfl | rfl | rfl | rfl | rfl | rfl | rfl
  · exact dtKind_blind f
  · exact dtCode_blind f
  · exact dtSubcmd_blind f
  · exact feRead_blind f
  · exact feWrite_blind f
  · exact feSelftest_blind f
  · exact absurd rfl hne
  · exact bcEnc_blind f
  · exact bcDec_blind f
  · exact wcEnc_blind f
  · exact wcDec_blind f
  · exact wcSenc_blind f
  · exact wcSdec_blind f
  · exact rmLayout_blind f
  · exact rmSizeof_blind f
  · exact rmDec_blind f
  · exact rmEnc_blind f

theorem exec_blind (i : Instr) : Blind .withoutResults (exec i) := by
  cases i with
  | dtKind f => exact (dtKind_blind f).withoutResults
  | dtCode f => exact (dtCode_blind f).withoutResults
  | dtSubcmd f => exact (dtSubcmd_blind f).withoutResults
  | feRead f => exact (feRead_blind f).withoutResults
  | feWrite f => exact (feWrite_blind f).withoutResults
  | feSelftest f => exact (feSelftest_blind f).withoutResults
  | rdRecv f => exact rdRecv_blind f
  | bcEnc f => exact (bcEnc_blind f).withoutResults
  | bcDec f => exact (bcDec_blind f).withoutResults
  | wcEnc f => exact (wcEnc_blind f).withoutResults
  | wcDec f => exact (wcDec_blind f).withoutResults
  | wcSenc f => exact (wcSenc_blind f).withoutResults
  | wcSdec f => exact (wcSdec_blind f).withoutResults
  | rmLayout f => exact (rmLayout_blind f).withoutResults
  | rmSizeof f => exact (rmSizeof_blind f).withoutResults
  | rmDec f => exact (rmDec_blind f).withoutResults
  | rmEnc f => exact (rmEnc_blind f).withoutResults
  | reqRead k a c n => exact fun _ _ _ _ _ => rfl
  | reqWrite k a c n p => exact .ite (fun _ _ _ _ _ => rfl) (fun _ _ _ _ _ => rfl)
  | reqSelftest u d => exact .ite (fun _ _ _ _ _ => rfl) (fun _ _ _ _ _ => rfl)
  | respD0 r b => exact .ite (.ite (fun _ _ _ _ _ => rfl) (fun _ _ _ _ _ => rfl)) (fun _ _ _ _ _ => rfl)
  | respD4 r b => exact .ite (.ite (fun _ _ _ _ _ => rfl) (fun _ _ _ _ _ => rfl)) (fun _ _ _ _ _ => rfl)

end Sys2Proof.Machine
end

section
/-! SUPPORT. The invariant of the machine, kept by each way a state can change. -/

namespace Sys2Proof.Machine

/-! ### The parts of the invariant -/

theorem sound_iff (s : State) :
    s.sound = true ↔ s.params.ok = true ∧ s.phaseSound = true ∧ s.shlSound = true ∧ s.olenSound = true ∧
      s.statusSound = true ∧ s.layoutSound = true ∧ s.doutSound = true := by
  simp [State.sound, and_assoc]

/-- The invariant says nothing of what the host and the transport hold. -/
theorem sound_of_block {s u : State} (hu : u.block = s.block) (h : s.sound = true) : u.sound = true := by
  have hblock : ∀ v : State, v.block.sound = v.sound := fun _ => rfl
  rw [← hblock, hu, hblock, h]

theorem overCapacity_zero (s : State) : s.overCapacity 0 = false := by
  unfold State.overCapacity
  split <;> simp

/-- Every status the block raises is a legal one. -/
theorem legalStatus_errStatus {k : ErrKind} {c : SubCause} {v : Word} (h : Raised k c v) :
    legalStatus (errStatus k c v) = true := by
  obtain ⟨hmem, hcode⟩ := h
  have hv : (errStatus k c v).extractLsb' 8 16 = v := (packStatus_fields _ _ v).2.2
  simp only [legalStatus, Bool.or_eq_true, List.any_eq_true]
  refine .inr ⟨(k, c), hmem, ?_⟩
  simp only [hv, hcode, beq_self_eq_true, Bool.and_self]

section
variable {s : State}

/-- A completed error is sound wherever the parameters and the table are. -/
theorem complete_sound (hp : s.params.ok = true) (hl : s.layoutSound = true) {k : ErrKind} {c : SubCause} {v : Word}
    (h : Raised k c v) : (s.complete k c v).sound = true :=
  (sound_iff _).mpr ⟨hp, rfl, rfl, rfl, by simp [State.statusSound, legalStatus_errStatus h], hl,
    by simp [State.doutSound, overCapacity_zero]⟩

/-- A success is sound wherever the parameters and the table are, with a `DOUT` the port can hold. -/
theorem doneWith_sound (hp : s.params.ok = true) (hl : s.layoutSound = true) {out : List Item}
    (h : s.overCapacity out.length = false) : (s.doneWith out).sound = true :=
  (sound_iff _).mpr ⟨hp, rfl, rfl, by simp [State.olenSound], rfl, hl,
    by simpa [State.doutSound, overCapacity_params (s := s) (t := s.doneWith out) rfl] using h⟩

theorem setLayout_layoutSound {es : List LtEntry} (h : Acceptable s.params.maxFields es) :
    (s.setLayout es).layoutSound = true := by
  have hsize : (BitVec.ofNat 16 (layoutWords es)).toNat = layoutWords es := by
    have := h.words_le
    rw [BitVec.toNat_ofNat]
    omega
  simpa [State.layoutSound, State.setLayout, hsize, h.length_le] using h.entries

theorem resetBlock_sound (hp : s.params.ok = true) : s.resetBlock.sound = true :=
  (sound_iff _).mpr ⟨hp, rfl, rfl, rfl, rfl, rfl, by simp [State.doutSound, overCapacity_zero]⟩

/-- An operation keeps the invariant in its issue step. -/
theorem completes_sound {op : Byte} {f : CwFields} {i : Instr} {t : State} (hs : s.sound = true)
    (hi : encode i = .command (encodeCw op f)) (ht : Completes (s.loadOperands op f) i t) : t.sound = true := by
  obtain ⟨hp, -, -, holen, hstatus, hl, hdout⟩ := (sound_iff s).mp hs
  cases ht with
  | error h => exact complete_sound hp hl h
  | data h => exact doneWith_sound hp hl h
  | scalar _ v => exact doneWith_sound hp hl (overCapacity_zero _)
  | @pending g h =>
    subst h
    obtain ⟨hop, -⟩ := encodeCw_inj (Code.command.inj hi : encodeCw 0x30 g = encodeCw op f)
    exact (sound_iff _).mpr ⟨hp, by simp [State.phaseSound, ← hop], rfl, holen, hstatus, hl, hdout⟩
  | layout _ he =>
    exact doneWith_sound (s := (s.loadOperands op f).clearLayout.setLayout _) hp (setLayout_layoutSound he)
      (overCapacity_zero _)
  | layoutError _ h => exact complete_sound (s := (s.loadOperands op f).clearLayout) hp rfl h

theorem exec_sound {i : Instr} {t : State} (hs : s.sound = true) (h : exec i s = .next t) : t.sound = true := by
  cases exec_next h with
  | operation hi _ ht => exact completes_sound hs hi ht
  | sends _ => exact sound_of_block rfl hs
  | arrives _ => exact sound_of_block rfl hs

/-- A continuation of `RD.RECV` keeps the invariant. -/
theorem continues_sound {t : State} (hs : s.sound = true) (h : Continues s t) : t.sound = true := by
  obtain ⟨hp, hphase, hshl, holen, hstatus, hl, hdout⟩ := (sound_iff s).mp hs
  cases h with
  | started _ hn hw =>
    refine (sound_iff _).mpr ⟨hp, ?_, ?_, holen, hstatus, hl, hdout⟩
    · rw [State.phaseSound, hw] at hphase
      exact hphase
    · simpa [State.shlSound] using hn
  | measured _ l hw =>
    refine (sound_iff _).mpr ⟨hp, ?_, ?_, holen, hstatus, hl, hdout⟩
    · rw [State.phaseSound, hw] at hphase
      exact hphase
    · simpa [State.shlSound, hw] using hshl
  | delivered _ h => exact doneWith_sound hp hl h
  | failed _ h => exact complete_sound hp hl h

end

end Sys2Proof.Machine
end

section
/-! The statements of the family of the state elements. -/

namespace Sys2Proof.Proofs

open Machine Claims

/-- Settles O54: each way a step can move keeps the invariant. -/
theorem everyStepKeepsTheStateSound : Obligations.EveryStepKeepsTheStateSound := by
  intro s t hs h
  cases step_next h with
  | others hu => exact sound_of_block hu hs
  | executes hu hx => exact exec_sound (sound_of_block hu hs) hx
  | illegal hu =>
    obtain ⟨hp, -, -, -, -, hl, -⟩ := (sound_iff _).mp (sound_of_block hu hs)
    exact complete_sound hp hl (by decide)
  | resets hu => exact resetBlock_sound ((sound_iff _).mp (sound_of_block hu hs)).1
  | continues hu hr => exact continues_sound (sound_of_block hu hs) (recvStep_some hr)

/-- Settles O57: no way a step can move writes the parameters. -/
theorem parametersNeverChange : Obligations.ParametersNeverChange := by
  intro s t h
  have hparams : ∀ {u v : State}, u.block = v.block → u.params = v.params := congrArg State.params
  cases step_next h with
  | others hu => exact hparams hu
  | executes hu hx => exact (exec_params hx).trans (hparams hu)
  | @illegal u hu => exact hparams (u := u) hu
  | @resets u hu => exact hparams (u := u) hu
  | continues hu hr => exact (continues_params (recvStep_some hr)).trans (hparams hu)

/-- Settles O40: the checks of the port come first, then the type of the items; a frame is built where `req` is
defined. -/
theorem everyStopHasItsName : Obligations.EveryStopHasItsName := by
  intro f s hb
  refine ⟨fun hd mk hmk => ?_, fun hd x hx => ⟨?_, ?_, ?_, ?_, ?_, ?_⟩, fun hd => ⟨?_, ?_⟩, ?_, ?_⟩
  · obtain ⟨op, k, -, hissue⟩ := operations_issue hmk f
    rw [hissue]
    exact issue_dinTooLong hb hd
  · intro hn mk hmk
    simp only [List.mem_cons, List.not_mem_nil, or_false] at hmk
    obtain rfl | rfl | rfl | rfl := hmk <;> (rw [exec]; exact issue_dinItemType hb hd hx hn)
  · intro hn
    show execBcEnc f s = _
    exact issue_dinItemType hb hd hx hn
  · intro hn mk hmk
    simp only [List.mem_cons, List.not_mem_nil, or_false] at hmk
    obtain rfl | rfl := hmk <;> (rw [exec]; exact issue_dinItemType hb hd hx hn)
  · intro hn
    show execWcSenc f s = _
    exact issue_dinItemType hb hd hx hn
  · intro hn
    show execRmLayout f s = _
    exact issue_dinItemType hb hd hx hn
  · intro hn
    show execRmEnc f s = _
    exact issue_dinItemType hb hd hx hn
  · exact execFeSelftest_frameUndefined hb hd
  · intro row payload hrow hdin hcount hmax hlong
    exact execFeWrite_frameUndefined hb hd hrow hdin hcount hmax hlong
  · intro k addr count sub code bs
    exact ⟨fun hlong => if_neg (by simp [payloadFits, hlong]), fun hlong => if_neg (by simp [selftestFits, hlong])⟩
  · intro routing body
    exact ⟨fun h => if_neg (responseFits_false (n := 8) h), fun h => if_neg (responseFits_false (n := 12) h)⟩

/-- Settles O43: of the ways an instruction can complete, only the scalar success writes `RES`. -/
theorem onlyScalarOperationsWriteRes : Obligations.OnlyScalarOperationsWriteRes := by
  intro i s t h
  cases exec_next h with
  | sends _ => exact .inl rfl
  | arrives _ => exact .inl rfl
  | operation _ _ ht =>
    cases ht with
    | scalar hi v => exact .inr ⟨rfl, isScalar_cases hi⟩
    | error _ => exact .inl rfl
    | data _ => exact .inl rfl
    | pending _ => exact .inl rfl
    | layout _ _ => exact .inl rfl
    | layoutError _ _ => exact .inl rfl

/-- Settles O44: an operation completes from its loaded state, which differs from `s` in the operand registers only. -/
theorem tableAndStreamHaveOneWriter : Obligations.TableAndStreamHaveOneWriter := by
  intro f mk s t hmk h
  obtain ⟨op, hcode, ht⟩ := operation_next hmk h
  obtain ⟨-, hdin, hrx, hterm, hparams⟩ := completes_frame ht
  refine ⟨hrx, hterm, hdin, hparams, fun hne => completes_table (s := s.loadOperands op f) ht fun g hg => hne ?_⟩
  rw [hg] at hcode
  obtain ⟨-, rfl⟩ := encodeCw_inj (Code.command.inj hcode : encodeCw 0x60 g = encodeCw op f)
  exact hg

/-- Settles O46: every instruction is blind for the four elements, each unit by the shape of its definition. -/
theorem resultsOfThePastDoNotMatter : Obligations.ResultsOfThePastDoNotMatter := by
  intro i s st v n out
  refine ⟨exec_blind i st v n out s, fun f mk hmk hi hne => ?_⟩
  subst hi
  exact operation_blind hmk hne st v n out s

/-- Settles O47: the operand registers hold what the decoder took from the command word. -/
theorem issuedWordReadsBack : Obligations.IssuedWordReadsBack := by
  rintro s t cw din rest later ⟨hq, hsched⟩ hb hop h
  have hissue : issueStep cw din rest { s with sched := later } = .next t := by
    rw [step_scheduled hsched, agentStep, hostStep] at h
    simpa only [hq] using h
  obtain ⟨i, hi, hx⟩ := issueStep_defined (by exact hb) hop hissue
  have hcode := decodeCommand_ok hi
  cases exec_next hx with
  | @operation op f _ ho _ ht =>
    obtain ⟨hread, hdin, -⟩ := completes_frame ht
    have hcw : encodeCw op f = cw := Code.command.inj (ho.symm.trans hcode)
    exact ⟨congrArg (fun w => some (HostView.command w)) (hread.trans hcw), hdin⟩
  | sends ho => exact absurd (ho.symm.trans hcode) Code.noConfusion
  | arrives ho => exact absurd (ho.symm.trans hcode) Code.noConfusion

/-- Settles O58: each case of the transport's move, bytes that make a frame among them. -/
theorem transportOnlyAppendsOrCloses : Obligations.TransportOnlyAppendsOrCloses := by
  intro s later hsched
  rw [step_scheduled hsched, agentStep]
  refine ⟨fun hclosed => if_neg hclosed, fun hopen => ?_⟩
  have hmove : transportStep { s with sched := later } = _ := if_pos hopen
  rw [hmove]
  refine ⟨fun hq => ?_, fun bs rest hq => ?_, fun rest hq => ?_, fun rest hq => ?_⟩
  · simp only [hq]
  · simp only [hq]
    exact appendStep_open hopen
  · simp only [hq, closedTerm]
  · simp only [hq, closedTerm]

/-- Settles O48, by evaluation of the reset state. -/
theorem resetValuesAreTheSpecs : Obligations.ResetValuesAreTheSpecs :=
  ⟨rfl, rfl, rfl, rfl, rfl, rfl, rfl, rfl, rfl, rfl⟩

/-- Settles O55, by evaluation of the reset state. -/
theorem resetIsSound : Obligations.ResetIsSound := by
  unfold Obligations.ResetIsSound
  decide

end Sys2Proof.Proofs
end

section
/-! SUPPORT. The host's move when it wants to issue (spec/20_memory.md R70). -/

namespace Sys2Proof.Machine

open Claims

/-- A step in which the schedule names a host that wants to issue is that issue. -/
theorem step_issues {s : State} {cw : CmdWord} {din : List Item} {rest : List HostAct} {later : List Agent}
    (h : Issues s cw din rest later) : step s = issueStep cw din rest { s with sched := later } := by
  obtain ⟨hq, hsched⟩ := h
  rw [step_scheduled hsched, agentStep, hostStep]
  simp only [hq]

/-- On a busy port the host has no issue step: the command word is not even decoded. -/
theorem issueStep_busy {cw : CmdWord} {din : List Item} {rest : List HostAct} {s : State} (hb : s.busy = true) :
    issueStep cw din rest s = .next s :=
  if_pos hb

end Sys2Proof.Machine
end

section
/-! The statements of the family of the memory: the command port. -/

namespace Sys2Proof.Proofs

open Machine Claims

/-- Settles O39: every operation is issued on the command port, which refuses while it is busy, and a host that wants to
issue then has no step. -/
theorem busyPortTakesNoOperation : Obligations.BusyPortTakesNoOperation := by
  intro s hb
  constructor
  · intro f mk hmk
    obtain ⟨op, k, -, hissue⟩ := operations_issue hmk f
    rw [hissue]
    exact issue_busy hb
  · intro cw din rest later h
    rw [step_issues h]
    exact issueStep_busy hb

end Sys2Proof.Proofs
end

section
/-! SUPPORT. Decoder and encoder, each the other's inverse: said once for the two bytes of a length field, then for the
device part, the request frame and the response frame (spec/30_encoding.md R91 to R102). -/

namespace Sys2Proof

open Machine

/-! ### Command words -/

/-- The command word of an `OP` in the table decodes to that operation. -/
theorem decodeCommand_encodeCw {op : Byte} {f : CwFields} {i : Instr} (h : opInstr op f = some i) :
    decodeCommand (encodeCw op f) = .ok i := by
  simp only [decodeCommand, cwOp_encodeCw, cwFields_encodeCw, h]

/-- Every operation is well formed (spec/30_encoding.md R92). -/
theorem wf_of_encode_command {i : Instr} {cw : CmdWord} (h : encode i = .command cw) : i.wf = true := by
  cases i with
  | reqWrite k a c n p => cases h
  | reqSelftest u d => cases h
  | respD0 r b => cases h
  | respD4 r b => cases h
  | _ => rfl

/-! ### The length field -/

/-- Two bytes that count `n` are the length field of `n`. -/
theorem le16_ofNat_of_counts {l h : Byte} {n : Nat} (hn : (un16 l h).toNat = n) :
    le16 (BitVec.ofNat 16 n) = [l, h] := by
  rw [← hn, BitVec.ofNat_toNat, BitVec.setWidth_eq, le16_un16]

/-! ### The device part of a request -/

theorem subKind_kindSub (k : DevKind) : subKind (kindSub k) = some k := by
  cases k <;> rfl

theorem kindSub_of_subKind {sub : Word} {k : DevKind} (h : subKind sub = some k) : kindSub k = sub := by
  unfold subKind at h
  split at h
  · next hbit =>
    cases h
    exact hbit.symm
  · split at h
    · next hword =>
      cases h
      exact hword.symm
    · cases h

theorem decodeDevice_encodeDevice (k : DevKind) (addr : Word) (code : Byte) (count : Word) (payload : List Byte) :
    decodeDevice (kindSub k) (encodeDevice addr code count ++ payload) = .ok (k, addr, code, count, payload) := by
  simp only [encodeDevice, le16, List.cons_append, List.nil_append, decodeDevice, subKind_kindSub, un16_le16, if_pos]

/-- What the device part is read from is what it is written as. -/
theorem decodeDevice_ok {sub : Word} {data : List Byte} {k : DevKind} {addr : Word} {code : Byte} {count : Word}
    {payload : List Byte} (h : decodeDevice sub data = .ok (k, addr, code, count, payload)) :
    kindSub k = sub ∧ encodeDevice addr code count ++ payload = data := by
  unfold decodeDevice at h
  split at h
  · split at h
    · cases h
    next hk =>
    split at h
    · next hr =>
      cases h
      refine ⟨kindSub_of_subKind hk, ?_⟩
      simp only [encodeDevice, le16_un16, hr, List.cons_append, List.nil_append]
    · cases h
  · cases h

/-! ### Request frames -/

/-- The header, the length and the timer of an encoded request are accepted; what decides is the command. -/
theorem decodeOutbound_encodeRequest {cmd sub : Word} {data : List Byte} (h : data.length ≤ 65529) :
    decodeOutbound (encodeRequest cmd sub data) = decodeRequest cmd sub data := by
  have hlen := lengthField_counts (n := 6 + data.length) (by omega)
  have htimer := un16_le16 Config.monTimer
  have hcmd := un16_le16 cmd
  have hsub := un16_le16 sub
  simp only [encodeRequest, Config.hdr, le16, List.cons_append, List.nil_append, decodeOutbound, hlen, htimer, hcmd,
    hsub, ne_eq, not_true_eq_false, if_false]

/-- What the decoder takes for a request frame has its header, length and timer. -/
theorem decodeOutbound_ok {bs : List Byte} {i : Instr} (h : decodeOutbound bs = .ok i) :
    ∃ cmd sub data, data.length ≤ 65529 ∧ encodeRequest cmd sub data = bs ∧ decodeRequest cmd sub data = .ok i := by
  unfold decodeOutbound at h
  split at h
  · next h0 h1 h2 h3 h4 h5 h6 l0 l1 t0 t1 c0 c1 s0 s1 data =>
    split at h
    · cases h
    next hhdr =>
    split at h
    · cases h
    next hlen =>
    split at h
    · cases h
    next htimer =>
    rw [not_not] at hhdr hlen htimer
    have hw := (un16 l0 l1).isLt
    refine ⟨_, _, data, by omega, ?_, h⟩
    rw [encodeRequest, ← hhdr, le16_ofNat_of_counts hlen, ← htimer, le16_un16, le16_un16, le16_un16]
    rfl
  · cases h

/-- What follows the subcommand, read by its command, is the data of that command's well-formed frame. -/
theorem decodeRequest_ok {cmd sub : Word} {data : List Byte} {i : Instr} (hdata : data.length ≤ 65529)
    (h : decodeRequest cmd sub data = .ok i) : i.wf = true ∧ encode i = .outbound (encodeRequest cmd sub data) := by
  unfold decodeRequest at h
  split at h
  · next hcmd =>
    split at h
    · next hdev =>
      cases h
      obtain ⟨hsub, hbytes⟩ := decodeDevice_ok hdev
      rw [List.append_nil] at hbytes
      exact ⟨rfl, by rw [encode, hsub, hbytes, hcmd]⟩
    · cases h
    · cases h
  split at h
  · next hcmd =>
    split at h
    · next payload hdev =>
      cases h
      obtain ⟨hsub, hbytes⟩ := decodeDevice_ok hdev
      have hlen := congrArg List.length hbytes
      rw [List.length_append, encodeDevice_length] at hlen
      have hfits : payload.length ≤ 65523 := by omega
      exact ⟨decide_eq_true hfits, by rw [encode, hsub, hbytes, hcmd]⟩
    · cases h
  split at h
  · next hcmd =>
    cases h
    exact ⟨decide_eq_true hdata, by rw [encode, hcmd]⟩
  · cases h

/-! ### Response frames -/

/-- The sub-header's ignored bytes and the body are found again. -/
theorem splitResponse_encoded {n : Nat} {routing body : List Byte} (hr : routingFits n routing = true)
    (hb : bodyFits body = true) :
    splitResponse n (routing ++ le16 (BitVec.ofNat 16 body.length) ++ body) = .ok (routing, body) := by
  have hn : n - 2 = routing.length := (beq_iff_eq.mp hr).symm
  have hlen := lengthField_counts (of_decide_eq_true hb)
  simp only [splitResponse, hn, List.append_assoc, List.drop_left, List.take_left, le16, List.cons_append,
    List.nil_append, hlen, if_pos]

/-- What the decoder takes for a response frame is one, of a form its first byte chooses. -/
theorem decodeInbound_ok {bs : List Byte} {i : Instr} (h : decodeInbound bs = .ok i) :
    i.wf = true ∧ encode i = .inbound bs := by
  unfold decodeInbound at h
  split at h
  · cases h
  split at h
  · next hdisc =>
    split at h
    · next hs =>
      cases h
      obtain ⟨hr, hb, hbytes⟩ := splitResponse_ok hs
      exact ⟨Bool.and_eq_true_iff.mpr ⟨hr, hb⟩, by rw [encode, encodeResponse, hbytes, hdisc]⟩
    · cases h
  split at h
  · next hdisc =>
    split at h
    · next hs =>
      cases h
      obtain ⟨hr, hb, hbytes⟩ := splitResponse_ok hs
      exact ⟨Bool.and_eq_true_iff.mpr ⟨hr, hb⟩, by rw [encode, encodeResponse, hbytes, hdisc]⟩
    · cases h
  · cases h

end Sys2Proof
end

section
/-! SUPPORT. What no operation reads: the operand fields outside its row's column "reads fields" (spec/30_encoding.md
R92, R93). -/

namespace Sys2Proof.Machine

open Claims

/-! ### Unread operand fields -/

/-- The operand registers as one value. -/
def State.operands (s : State) : CwFields := ⟨s.dev, s.addr, s.count, s.len⟩

/-- The state with other operand registers. -/
def State.withOperands (f : CwFields) (s : State) : State :=
  { s with dev := f.dev, addr := f.addr, count := f.count, len := f.len }

/-- `q` reads of the operand registers only what `R` says two field lists agree on. -/
def ReadsOperands {α : Sort _} (R : CwFields → CwFields → Prop) (q : State → α) : Prop :=
  ∀ f s, R s.operands f → q (s.withOperands f) = q s

/-- But for the operand registers themselves, the outcome of `x` depends on them only through `R`. -/
def OperandBlind (R : CwFields → CwFields → Prop) (x : State → Out) : Prop :=
  ReadsOperands R fun s => view eraseOperands (x s)

section
variable {R : CwFields → CwFields → Prop}

theorem OperandBlind.ite {p : State → Prop} [∀ s, Decidable (p s)] {a b : State → Out}
    (hp : ReadsOperands R p) (ha : OperandBlind R a) (hb : OperandBlind R b) :
    OperandBlind R (fun s => if p s then a s else b s) := by
  intro f s hR
  dsimp only
  have hps := hp f s hR
  by_cases h : p s
  · rw [if_pos (hps.mpr h), if_pos h]
    exact ha f s hR
  · rw [if_neg (fun hw => h (hps.mp hw)), if_neg h]
    exact hb f s hR

theorem OperandBlind.withDin {α : Type} {as? : Item → Option α} {k : List α → State → Out}
    (h : ∀ xs, OperandBlind R (k xs)) : OperandBlind R (fun s => withDin as? s fun xs => k xs s) := by
  intro f s hR
  dsimp only
  cases hx : itemsAs as? s.din with
  | none => simp only [Machine.withDin, State.withOperands, hx]
  | some xs =>
    rw [withDin_some (by exact hx), withDin_some hx]
    exact h xs f s hR

/-- An error completion keeps the operand registers and reads none. -/
theorem OperandBlind.error {k : ErrKind} {c : SubCause} : OperandBlind R (fun s => .next (s.complete k c 0)) :=
  fun _ _ _ => rfl

/-- A scalar completion with a value that none of the operand registers decides. -/
theorem OperandBlind.scalar {v : State → Word} (hv : ReadsOperands R v) :
    OperandBlind R (fun s => .next (s.finishRes (v s))) := by
  intro f s hR
  dsimp only
  rw [hv f s hR]
  rfl

theorem OperandBlind.finish {data : State → List Item} (hd : ReadsOperands R data) :
    OperandBlind R (fun s => .next (s.finish (data s))) := by
  intro f s hR
  dsimp only
  rw [hd f s hR, State.finish, State.finish, overCapacity_params (s := s) (t := s.withOperands f) rfl]
  split <;> rfl

theorem OperandBlind.deliverFrame {frame : State → Option (List Byte)}
    (hf : ReadsOperands R frame) :
    OperandBlind R (fun s => deliverFrame s (frame s)) := by
  intro f s hR
  dsimp only
  rw [hf f s hR]
  cases frame s with
  | none => rfl
  | some bs => exact OperandBlind.finish (data := fun _ => bs.map .byte) (fun _ _ _ => rfl) f s hR

/-- The device check reads `DEV` alone. -/
theorem OperandBlind.withDevice {k : DevRow → State → Out} (hdev : ReadsOperands R State.dev)
    (h : ∀ row, OperandBlind R (k row)) : OperandBlind R (fun s => withDevice s fun row => k row s) := by
  intro f s hR
  dsimp only
  have hdevice : (s.withOperands f).device (s.withOperands f).dev = s.device s.dev := by
    rw [hdev f s hR]
    rfl
  cases hr : s.device s.dev with
  | none =>
    rw [withDevice_none (hdevice.trans hr), withDevice_none hr]
    rfl
  | some row =>
    rw [withDevice_some (hdevice.trans hr), withDevice_some hr]
    exact h row f s hR

theorem OperandBlind.withLayout {k : State → Out} (h : OperandBlind R k) :
    OperandBlind R (fun s => withLayout s (k s)) :=
  .ite (fun _ _ _ => rfl) h .error

end

/-! ### The fields that are read -/

section
variable {dev addr count len : Bool}

theorem readsOperands_dev : ReadsOperands (agreeOn true addr count len) State.dev :=
  fun _ _ ⟨hdev, _, _, _⟩ => (hdev rfl).symm

theorem readsOperands_addr : ReadsOperands (agreeOn dev true count len) State.addr :=
  fun _ _ ⟨_, haddr, _, _⟩ => (haddr rfl).symm

theorem readsOperands_count : ReadsOperands (agreeOn dev addr true len) State.count :=
  fun _ _ ⟨_, _, hcount, _⟩ => (hcount rfl).symm

theorem readsOperands_len : ReadsOperands (agreeOn dev addr count true) State.len :=
  fun _ _ ⟨_, _, _, hlen⟩ => (hlen rfl).symm

end

section
variable {R : CwFields → CwFields → Prop} {α β γ : Type} {p : State → α} {q : State → β}

/-- What is made of a value reads no more than the value does. -/
theorem ReadsOperands.map (hp : ReadsOperands R p) (m : α → γ) : ReadsOperands R fun s => m (p s) :=
  fun f s hR => congrArg m (hp f s hR)

theorem ReadsOperands.map₂ (hp : ReadsOperands R p) (hq : ReadsOperands R q) (m : α → β → γ) :
    ReadsOperands R fun s => m (p s) (q s) :=
  fun f s hR => congrArg₂ m (hp f s hR) (hq f s hR)

end

/-! ### The seventeen operations -/

/-- But for the operand registers, the operation `x` has the same outcome on field lists that `R` relates. -/
def OperationReads (R : CwFields → CwFields → Prop) (x : CwFields → State → Out) : Prop :=
  ∀ f g s, R f g → view eraseOperands (x f s) = view eraseOperands (x g s)

/-- An operation reads no more of its command word than its effect does of the operand registers. -/
theorem OperationReads.issue {R : CwFields → CwFields → Prop} {op : Byte} {k : State → Out} (hk : OperandBlind R k) :
    OperationReads R fun f s => issue op f s k := by
  intro f g s hR
  dsimp only
  unfold Machine.issue
  split
  · rfl
  split
  · rfl
  · exact (hk g (s.loadOperands op f) hR).symm

theorem countLimit_reads {dev addr len : Bool} :
    ReadsOperands (agreeOn dev addr true len) fun s => s.count.toNat > s.params.maxCount :=
  readsOperands_count.map₂ (q := State.params) (fun _ _ _ => rfl) fun n p => n.toNat > p.maxCount

theorem dev6_reads {dev len : Bool} (row : DevRow) :
    ReadsOperands (agreeOn dev true true len) fun s => dev6 row s.addr s.count :=
  readsOperands_addr.map₂ readsOperands_count (dev6 row)

theorem dtKind_reads : OperationReads (agreeOn true false false false) execDtKind :=
  .issue (.withDevice readsOperands_dev fun _ => .scalar fun _ _ _ => rfl)

theorem dtCode_reads : OperationReads (agreeOn true false false false) execDtCode :=
  .issue (.withDevice readsOperands_dev fun _ => .scalar fun _ _ _ => rfl)

theorem dtSubcmd_reads : OperationReads (agreeOn true false false false) execDtSubcmd :=
  .issue (.withDevice readsOperands_dev fun _ => .scalar fun _ _ _ => rfl)

theorem feRead_reads : OperationReads (agreeOn true true true false) execFeRead :=
  .issue (.withDevice readsOperands_dev fun row => .ite countLimit_reads .error
    (.deliverFrame ((dev6_reads row).map fun d => req Config.cmdRead (subcommand row.kind) d)))

theorem feWrite_reads : OperationReads (agreeOn true true true false) execFeWrite :=
  .issue (.withDin fun payload => .withDevice readsOperands_dev fun row => .ite countLimit_reads .error
    (.ite (fun _ _ _ => rfl) .error
      (.deliverFrame ((dev6_reads row).map fun d => req Config.cmdWrite (subcommand row.kind) (d ++ payload)))))

theorem bcDec_reads : OperationReads (agreeOn false false true false) execBcDec :=
  .issue (.withDin fun bs => .ite (readsOperands_count.map fun n => 2 * bs.length < n.toNat) .error
    (.finish (readsOperands_count.map fun n => ((unpackBytes bs).take n.toNat).map Item.bool)))

theorem wcSdec_reads : OperationReads (agreeOn false false false true) execWcSdec :=
  .issue (.withDin fun bs => .ite (fun _ _ _ => rfl) .error
    (.ite (readsOperands_len.map fun n => n.toNat > bs.length) .error
      (.finish (readsOperands_len.map fun n => ((unpackChars (wordDecode bs)).take n.toNat).map Item.char))))

/-! The others read no operand field at all. -/

section
variable {R : CwFields → CwFields → Prop}

theorem feSelftest_reads : OperationReads R execFeSelftest := .issue (.deliverFrame fun _ _ _ => rfl)

theorem rdRecv_reads : OperationReads R execRdRecv := .issue fun _ _ _ => rfl

theorem bcEnc_reads : OperationReads R execBcEnc := .issue (.withDin fun _ => .finish fun _ _ _ => rfl)

theorem wcEnc_reads : OperationReads R execWcEnc := .issue (.withDin fun _ => .finish fun _ _ _ => rfl)

theorem wcDec_reads : OperationReads R execWcDec :=
  .issue (.withDin fun _ => .ite (fun _ _ _ => rfl) .error (.finish fun _ _ _ => rfl))

theorem wcSenc_reads : OperationReads R execWcSenc := .issue (.withDin fun _ => .finish fun _ _ _ => rfl)

theorem rmLayout_reads : OperationReads R execRmLayout := by
  refine .issue (.withDin fun ds => .ite (fun _ _ _ => rfl) (fun _ _ _ => rfl) fun _ _ _ => ?_)
  cases buildLayout 0 ds with
  | ok es => rfl
  | error e => rfl

theorem rmSizeof_reads : OperationReads R execRmSizeof := .issue (.withLayout (.scalar fun _ _ _ => rfl))

theorem rmDec_reads : OperationReads R execRmDec :=
  .issue (.withDin fun _ => .withLayout (.ite (fun _ _ _ => rfl) .error (.finish fun _ _ _ => rfl)))

theorem rmEnc_reads : OperationReads R execRmEnc := by
  refine .issue (.withDin fun vs => .withLayout (.ite (fun _ _ _ => rfl) .error fun f s hR => ?_))
  have hlayout : (s.withOperands f).layout = s.layout := rfl
  dsimp only
  rw [hlayout]
  cases recordEncode s.layout vs with
  | ok ws => exact OperandBlind.finish (data := fun _ => ws.map .word) (fun _ _ _ => rfl) f s hR
  | error c => rfl

end

end Sys2Proof.Machine
end

section
/-! SUPPORT. The bytes of the wire rows by offset (spec/30_encoding.md R95, R100). -/

namespace Sys2Proof

open Machine Claims

/-- The subcommand of a kind in its two bytes (spec/30_encoding.md R97). -/
theorem le16_kindSub (k : DevKind) : le16 (kindSub k) = [if k = .bit then 0x01 else 0x00, 0x00] := by
  cases k <;> rfl

/-- A read or write frame by offset: its length field counts the twelve fixed bytes and the payload. -/
theorem encodeRequest_device (cmd : Word) (k : DevKind) (addr : Word) (code : Byte) (count : Word)
    (payload : List Byte) :
    encodeRequest cmd (kindSub k) (encodeDevice addr code count ++ payload) =
      [0x50, 0x00, 0x00, 0xff, 0xff, 0x03, 0x00, lo (BitVec.ofNat 16 (12 + payload.length)),
        hi (BitVec.ofNat 16 (12 + payload.length)), 0x00, 0x00, lo cmd, hi cmd,
        (if k = .bit then 0x01 else 0x00), 0x00, lo addr, hi addr, 0x00, code, lo count, hi count] ++ payload := by
  have hlen : 6 + (encodeDevice addr code count ++ payload).length = 12 + payload.length := by
    rw [List.length_append, encodeDevice_length]
    omega
  rw [encodeRequest, hlen, le16_kindSub]
  rfl

end Sys2Proof
end

section
/-! SUPPORT. A scheduled agent's code that decodes is executed (spec/30_encoding.md R90, R93), and one `OP` outside the
table completes (R94). -/

namespace Sys2Proof.Machine

open Claims

theorem issueStep_decoded {cw : CmdWord} {din : List Item} {rest : List HostAct} {s : State} {i : Instr}
    (hb : s.busy = false) (h : decodeCommand cw = .ok i) :
    issueStep cw din rest s = exec i { s with hostQ := rest, din := din } := by
  simp only [issueStep, hb, h, Bool.false_eq_true, if_false]

theorem issueStep_undefined {cw : CmdWord} {din : List Item} {rest : List HostAct} {s : State} {e : DecodeError}
    (hb : s.busy = false) (h : decodeCommand cw = .error e) :
    issueStep cw din rest s = .next ({ s with hostQ := rest }.complete .illegalOp .none 0) := by
  simp only [issueStep, hb, h, Bool.false_eq_true, if_false, illegalOp]

theorem sendStep_decoded {bs : List Byte} {s : State} {i : Instr} (h : decodeOutbound bs = .ok i) :
    sendStep bs s = exec i s := by
  simp only [sendStep, h]

theorem appendStep_decoded {bs : List Byte} {s : State} {i : Instr} (h : decodeInbound bs = .ok i) :
    appendStep bs s = exec i s := by
  simp only [appendStep, h]

/-- An `OP` outside the table selects no operation. -/
theorem opInstr_undefined {op : Byte} (h : op.toNat ∉ opCodes) (f : CwFields) : opInstr op f = none := by
  unfold opInstr
  split
  case h_18 => rfl
  all_goals
    next hop => exact absurd (by rw [hop]; decide) h

/-- The seventeen codes are all of one byte, so 239 of its 256 values are outside the table (spec/30_encoding.md R94). -/
theorem undefinedOps_length : ((List.range 256).filter fun n => !opCodes.contains n).length = 239 := by
  have hdefined : ((List.range 256).filter opCodes.contains).Perm opCodes := by
    refine (List.perm_ext_iff_of_nodup (List.nodup_range.filter _) (by decide)).mpr fun n => ?_
    have hbyte : ∀ m ∈ opCodes, m < 256 := by decide
    simpa using hbyte n
  have hsplit := List.length_eq_length_filter_add (l := List.range 256) opCodes.contains
  rw [hdefined.length_eq, List.length_range] at hsplit
  have hcodes : opCodes.length = 17 := rfl
  omega

theorem decodeCommand_undefined {cw : CmdWord} (h : (cw.extractLsb' 0 8).toNat ∉ opCodes) :
    decodeCommand cw = .error (.illegalOp (cwOp cw)) := by
  rw [decodeCommand, opInstr_undefined (by exact h)]

end Sys2Proof.Machine
end

section
/-! The statements of the family of the encoding. -/

namespace Sys2Proof.Proofs

open Machine Claims

/-- Settles O52: per port, the decoder finds every field where the encoder put it. -/
theorem decodeOfEncode : Obligations.DecodeOfEncode := by
  intro i hwf
  cases i with
  | reqRead k addr code count =>
    have hdev := decodeDevice_encodeDevice k addr code count []
    rw [List.append_nil] at hdev
    rw [encode, decode, decodeOutbound_encodeRequest (by rw [encodeDevice_length]; decide), decodeRequest, if_pos rfl,
      hdev]
  | reqWrite k addr code count payload =>
    have hlen : payload.length ≤ 65523 := of_decide_eq_true hwf
    have hdata : (encodeDevice addr code count ++ payload).length ≤ 65529 := by
      rw [List.length_append, encodeDevice_length]
      omega
    rw [encode, decode, decodeOutbound_encodeRequest hdata, decodeRequest, if_neg (by decide), if_pos rfl,
      decodeDevice_encodeDevice]
  | reqSelftest sub data =>
    rw [encode, decode, decodeOutbound_encodeRequest (of_decide_eq_true hwf), decodeRequest, if_neg (by decide),
      if_neg (by decide), if_pos rfl]
  | respD0 routing body =>
    obtain ⟨hr, hb⟩ := Bool.and_eq_true_iff.mp hwf
    rw [encode, decode, encodeResponse, decodeInbound, if_pos rfl, splitResponse_encoded hr hb]
  | respD4 routing body =>
    obtain ⟨hr, hb⟩ := Bool.and_eq_true_iff.mp hwf
    rw [encode, decode, encodeResponse, decodeInbound, if_neg (by decide), if_pos rfl, splitResponse_encoded hr hb]
  | _ => exact decodeCommand_encodeCw rfl

/-- Settles O53: what each port's decoder accepts is an encoding, field by field. -/
theorem encodeOfDecode : Obligations.EncodeOfDecode := by
  intro c i h
  cases c with
  | command cw =>
    have hcode := decodeCommand_ok h
    exact ⟨wf_of_encode_command hcode, hcode⟩
  | outbound bs =>
    obtain ⟨cmd, sub, data, hlen, hbytes, hreq⟩ := decodeOutbound_ok h
    rw [← hbytes]
    exact decodeRequest_ok hlen hreq
  | inbound bs => exact decodeInbound_ok h

/-- Settles O45: each operation's row of the table against what its effect reads. -/
theorem unreadFieldsAreIgnored : Obligations.UnreadFieldsAreIgnored := by
  intro f g s mk dev addr count len hrow hagree
  simp only [List.mem_cons, List.not_mem_nil, or_false, Prod.mk.injEq] at hrow
  rcases hrow with ⟨rfl, rfl, rfl, rfl, rfl⟩ | ⟨rfl, rfl, rfl, rfl, rfl⟩ | ⟨rfl, rfl, rfl, rfl, rfl⟩ |
    ⟨rfl, rfl, rfl, rfl, rfl⟩ | ⟨rfl, rfl, rfl, rfl, rfl⟩ | ⟨rfl, rfl, rfl, rfl, rfl⟩ | ⟨rfl, rfl, rfl, rfl, rfl⟩ |
    ⟨rfl, rfl, rfl, rfl, rfl⟩ | ⟨rfl, rfl, rfl, rfl, rfl⟩ | ⟨rfl, rfl, rfl, rfl, rfl⟩ | ⟨rfl, rfl, rfl, rfl, rfl⟩ |
    ⟨rfl, rfl, rfl, rfl, rfl⟩ | ⟨rfl, rfl, rfl, rfl, rfl⟩ | ⟨rfl, rfl, rfl, rfl, rfl⟩ | ⟨rfl, rfl, rfl, rfl, rfl⟩ |
    ⟨rfl, rfl, rfl, rfl, rfl⟩ | ⟨rfl, rfl, rfl, rfl, rfl⟩
  · exact dtKind_reads f g s hagree
  · exact dtCode_reads f g s hagree
  · exact dtSubcmd_reads f g s hagree
  · exact feRead_reads f g s hagree
  · exact feWrite_reads f g s hagree
  · exact feSelftest_reads f g s hagree
  · exact rdRecv_reads f g s hagree
  · exact bcEnc_reads f g s hagree
  · exact bcDec_reads f g s hagree
  · exact wcEnc_reads f g s hagree
  · exact wcDec_reads f g s hagree
  · exact wcSenc_reads f g s hagree
  · exact wcSdec_reads f g s hagree
  · exact rmLayout_reads f g s hagree
  · exact rmSizeof_reads f g s hagree
  · exact rmDec_reads f g s hagree
  · exact rmEnc_reads f g s hagree

/-- Settles O35: each frame by offset, where the length field can count it. -/
theorem requestFramesGoOut : Obligations.RequestFramesGoOut := by
  intro k addr code count payload data sub s
  refine ⟨?_, fun hpayload => ?_, fun hdata => ?_⟩
  · have hframe := encodeRequest_device Config.cmdRead k addr code count []
    rw [List.append_nil, List.append_nil] at hframe
    rw [exec, execReqRead, hframe]
    rfl
  · have hfits : payloadFits payload = true := decide_eq_true hpayload
    rw [exec, execReqWrite, if_pos hfits, encodeRequest_device]
    rfl
  · have hfits : selftestFits data = true := decide_eq_true hdata
    rw [exec, execReqSelftest, if_pos hfits]
    rfl

/-- Settles O36: a well-formed response arrives wherever the stream is open. -/
theorem responseFramesArrive : Obligations.ResponseFramesArrive := by
  intro routing body s hbody
  have hfits : ∀ n, routing.length = n - 2 → (routingFits n routing && bodyFits body) = true := fun n hr =>
    Bool.and_eq_true_iff.mpr ⟨beq_iff_eq.mpr hr, decide_eq_true hbody⟩
  refine ⟨fun hr ho => ?_, fun hr ho => ?_, fun hr hc => ?_, fun hr hc => ?_⟩
  · rw [exec, execRespD0, if_pos (hfits 8 hr), arrive, if_pos ho]
    rfl
  · rw [exec, execRespD4, if_pos (hfits 12 hr), arrive, if_pos ho]
    rfl
  · rw [exec, execRespD0, if_pos (hfits 8 hr), arrive, if_neg hc]
  · rw [exec, execRespD4, if_pos (hfits 12 hr), arrive, if_neg hc]

/-- Settles O38: an `OP` outside the table is an error completion, which an idle block sees in three elements. -/
theorem illegalOpChangesNothingElse : Obligations.IllegalOpChangesNothingElse := by
  refine ⟨undefinedOps_length, fun s cw din rest later hissue hb hphase hop => ?_⟩
  rw [step_issues hissue, issueStep_undefined (by exact hb) (decodeCommand_undefined hop), State.complete]
  simp only [hb, hphase]
  rfl

/-- Settles O50: the three ports of the scheduled agent. -/
theorem stepRunsTheDecodedInstruction : Obligations.StepRunsTheDecodedInstruction := by
  intro s i later
  refine ⟨fun cw din rest hsched hq hb hi => ?_, fun bs rest hsched hq hi => ?_,
    fun bs rest hsched hq hopen hi => ?_⟩
  · rw [step_issues ⟨hq, hsched⟩, issueStep_decoded (by exact hb) hi]
  · rw [step_scheduled hsched, agentStep, hostStep]
    simp only [hq]
    exact sendStep_decoded hi
  · rw [step_scheduled hsched, agentStep, transportStep, if_pos (by exact hopen)]
    simp only [hq]
    exact appendStep_decoded hi

/-- Settles O51, by evaluation of the decoder on the seven words. -/
theorem specWordsDecode : Obligations.SpecWordsDecode := by
  unfold Obligations.SpecWordsDecode
  decide

end Sys2Proof.Proofs
end

section
/-! SUPPORT. How an operation on a device ends: a scalar completion and an error completion as the claims write them
out, and the two outcomes of the device check (spec/40_device_table.md R145). -/

namespace Sys2Proof.Machine

open Claims

/-! ### Completions of an issued operation -/

theorem loadOperands_finishRes (op : Byte) (f : CwFields) (v : Word) (s : State) :
    (s.loadOperands op f).finishRes v = scalar op f v s := rfl

theorem loadOperands_complete (op : Byte) (f : CwFields) (k : ErrKind) (c : SubCause) (v : Word) (s : State) :
    (s.loadOperands op f).complete k c v = failed op f (errStatus k c v) s := rfl

/-- UnknownDevice is kind 10, without a sub-cause (spec/60_exceptions.md R281, R282). -/
theorem errStatus_unknownDevice : errStatus .unknownDevice .none 0 = 0x00000a := by decide

/-! ### The device check -/

section
variable {op : Byte} {f : CwFields} {s : State}

theorem issue_withDevice_row {row : DevRow} {k : State → DevRow → Out} (h : Ready s)
    (hrow : s.params.devtab[f.dev.toNat]? = some row) :
    issue op f s (fun u => withDevice u (k u)) = k (s.loadOperands op f) row := by
  obtain ⟨hb, hd⟩ := h
  rw [issue_ready hb hd, withDevice_some ((loadOperands_device s op f).trans hrow)]

theorem issue_withDevice_beyond {k : State → DevRow → Out} (h : Ready s)
    (hdev : s.params.devtab.length ≤ f.dev.toNat) :
    issue op f s (fun u => withDevice u (k u)) = .next (failed op f 0x00000a s) := by
  obtain ⟨hb, hd⟩ := h
  have hnone : s.params.devtab[f.dev.toNat]? = none := List.getElem?_eq_none hdev
  rw [issue_ready hb hd, withDevice_none ((loadOperands_device s op f).trans hnone), loadOperands_complete,
    errStatus_unknownDevice]

/-- An operation that reports `v` of its device's row, for each side of the device check. -/
theorem issue_withDevice_finishRes (op : Byte) (f : CwFields) (v : DevRow → Word) (h : Ready s) :
    (∀ row, s.params.devtab[f.dev.toNat]? = some row →
      issue op f s (fun u => withDevice u fun r => .next (u.finishRes (v r))) = .next (scalar op f (v row) s)) ∧
    (s.params.devtab.length ≤ f.dev.toNat →
      issue op f s (fun u => withDevice u fun r => .next (u.finishRes (v r))) = .next (failed op f 0x00000a s)) := by
  refine ⟨fun row hrow => ?_, issue_withDevice_beyond h⟩
  rw [issue_withDevice_row h hrow, loadOperands_finishRes]

end

/-! ### What a row's kind is reported as -/

theorem kindNumber_eq_ite (k : DevKind) : kindNumber k = if k = .bit then 1 else 0 := by
  cases k <;> rfl

theorem subcommand_eq_ite (k : DevKind) : subcommand k = if k = .bit then 0x0001 else 0x0000 := by
  cases k <;> rfl

end Sys2Proof.Machine
end

section
/-! The statements of the family of the device table. -/

namespace Sys2Proof.Proofs

open Machine Claims

/-- Settles O1: the row's kind as a number, behind the device check. -/
theorem dtKindReportsTheKind : Obligations.DtKindReportsTheKind := by
  intro f s h
  simp only [← kindNumber_eq_ite]
  exact issue_withDevice_finishRes 0x10 f (fun row => kindNumber row.kind) h

/-- Settles O2: the row's wire code, behind the device check. -/
theorem dtCodeReportsTheWireCode : Obligations.DtCodeReportsTheWireCode := by
  intro f s h
  exact issue_withDevice_finishRes 0x11 f (fun row => row.code.setWidth 16) h

/-- Settles O3: the subcommand of the row's kind, behind the device check. -/
theorem dtSubcmdReportsTheSubcommand : Obligations.DtSubcmdReportsTheSubcommand := by
  intro f s h
  simp only [← subcommand_eq_ite]
  exact issue_withDevice_finishRes 0x12 f (fun row => subcommand row.kind) h

end Sys2Proof.Proofs
end

section
/-! SUPPORT. How the frame encoder ends: what an issued operation delivers, its errors as the claims write them out, and
what a success says of the frame in `DOUT` (spec/41_frame_encoder.md). -/

namespace Sys2Proof.Machine

open Claims

/-! ### The two halves of the model name the parts of a frame alike -/

theorem subcommand_eq_kindSub (k : DevKind) : subcommand k = kindSub k := by
  cases k <;> rfl

theorem dev6_eq_encodeDevice (row : DevRow) (addr count : Word) :
    dev6 row addr count = encodeDevice addr row.code count := rfl

/-! ### Errors -/

/-- Capacity is kind 13, and the count limit its sub-cause 1 (spec/60_exceptions.md R281, R282). -/
theorem errStatus_countLimit : errStatus .capacity .countLimit 0 = 0x00001d := by decide

/-- Capacity is kind 13, and the frame length its sub-cause 2 (spec/60_exceptions.md R281, R282). -/
theorem errStatus_frameLength : errStatus .capacity .frameLength 0 = 0x00002d := by decide

/-- No error completion reads as a success: every kind has a code of its own, and 0 is none of them. -/
theorem errStatus_ne_zero (k : ErrKind) (c : SubCause) (v : Word) : errStatus k c v ≠ 0 := by
  intro h
  have hcode : (errStatus k c v).extractLsb' 0 4 = errCode k := (packStatus_fields _ _ v).1
  have hzero : errCode k = 0 := by rw [← hcode, h]; rfl
  cases k <;> exact absurd hzero (by decide)

section
variable {op : Byte} {f : CwFields} {s t : State}

/-! ### What an issued operation delivers -/

theorem loadOperands_doneWith {out : List Item} (h : out.length < 2 ^ 32) :
    (s.loadOperands op f).doneWith out = succeeded op f out s := by
  rw [State.doneWith, olenOf_small h]
  rfl

/-- A body that the length field counts makes a frame, which `DOUT` delivers where it holds the fifteen bytes before
the data and the data. -/
theorem deliverFrame_req {cmd sub : Word} {data : List Byte} (hlen : data.length ≤ 65529)
    (hfits : Fits s (15 + data.length)) :
    deliverFrame (s.loadOperands op f) (req cmd sub data) =
      .next (succeeded op f (bytes (encodeRequest cmd sub data)) s) := by
  obtain ⟨hcap, hsmall⟩ := hfits
  have hout : (bytes (encodeRequest cmd sub data)).length = 15 + data.length := by
    rw [List.length_map, encodeRequest_length]
  rw [req_eq_encodeRequest (by omega), deliverFrame,
    finish_fits (by rw [hout, loadOperands_overCapacity, hcap]), loadOperands_doneWith (by rwa [hout])]

/-- The same for the frame of a read or write, in the terms of the wire format. -/
theorem deliverFrame_device {cmd : Word} {row : DevRow} {payload : List Byte} (hlen : payload.length ≤ 65523)
    (hfits : Fits s (21 + payload.length)) :
    deliverFrame (s.loadOperands op f) (req cmd (subcommand row.kind) (dev6 row f.addr f.count ++ payload)) =
      .next (succeeded op f (bytes (encodeRequest cmd (kindSub row.kind)
        (encodeDevice f.addr row.code f.count ++ payload))) s) := by
  have hdata : (encodeDevice f.addr row.code f.count ++ payload).length = 6 + payload.length := by
    rw [List.length_append, encodeDevice_length]
  rw [subcommand_eq_kindSub, dev6_eq_encodeDevice]
  refine deliverFrame_req (by omega) ?_
  rwa [hdata, ← Nat.add_assoc]

/-- With bytes in `DIN`, an operation on bytes goes on with them. -/
theorem issue_withDin_bytes {payload : List Byte} {k : State → List Byte → Out} (h : Ready s)
    (hdin : s.din = bytes payload) :
    issue op f s (fun u => withDin Item.byte? u (k u)) = issue op f s (fun u => k u payload) := by
  obtain ⟨hb, hd⟩ := h
  have hitems : itemsAs Item.byte? (s.loadOperands op f).din = some payload := by
    rw [State.loadOperands_din, hdin, itemsAs_bytes]
  rw [issue_ready hb hd, issue_ready hb hd, withDin_some hitems]

/-! ### What a success says -/

/-- A successful operation on a device has passed the device check. -/
theorem withDevice_success {k : DevRow → Out} (h : withDevice s k = .next t) (ht : t.status = 0) :
    ∃ row, s.device s.dev = some row ∧ k row = .next t := by
  obtain hrow | ⟨-, rfl⟩ := withDevice_next h
  · exact hrow
  · exact absurd ht (errStatus_ne_zero _ _ _)

/-- A successful operation has passed a check that ends in an error. -/
theorem check_success {p : Prop} [Decidable p] {k : ErrKind} {c : SubCause} {v : Word} {o : Out}
    (h : (if p then .next (s.complete k c v) else o) = Host.Outcome.next t) (ht : t.status = 0) : o = .next t := by
  split at h
  · cases h
    exact absurd ht (errStatus_ne_zero _ _ _)
  · exact h

/-- A success delivers the whole of a frame that `req` defines. -/
theorem deliverFrame_success {frame : Option (List Byte)} (h : deliverFrame s frame = .next t) (ht : t.status = 0) :
    ∃ bs, frame = some bs ∧ t.dout = bytes bs := by
  cases frame with
  | none => cases h
  | some bs =>
    cases h
    obtain ⟨-, he⟩ | ⟨-, he⟩ := finish_cases s (bytes bs)
    · exact ⟨bs, rfl, by rw [he, State.doneWith_dout]⟩
    · rw [he] at ht
      exact absurd ht (errStatus_ne_zero _ _ _)

theorem execFeRead_success (h : execFeRead f s = .next t) (ht : t.status = 0) :
    ∃ bs row, t.dout = bytes bs ∧ s.params.devtab[f.dev.toNat]? = some row ∧
      req Config.cmdRead (subcommand row.kind) (dev6 row f.addr f.count) = some bs := by
  obtain ⟨-, -, h⟩ := issue_next h
  obtain ⟨row, hrow, h⟩ := withDevice_success h ht
  obtain ⟨bs, hreq, hout⟩ := deliverFrame_success (check_success h ht) ht
  exact ⟨bs, row, hout, hrow, hreq⟩

theorem execFeWrite_success {payload : List Byte} (hdin : s.din = bytes payload) (h : execFeWrite f s = .next t)
    (ht : t.status = 0) :
    ∃ bs row, t.dout = bytes bs ∧ s.params.devtab[f.dev.toNat]? = some row ∧
      req Config.cmdWrite (subcommand row.kind) (dev6 row f.addr f.count ++ payload) = some bs := by
  obtain ⟨-, -, h⟩ := issue_next h
  obtain ⟨payload', hitems, h⟩ := withDin_next h
  rw [State.loadOperands_din, hdin, itemsAs_bytes] at hitems
  cases hitems
  obtain ⟨row, hrow, h⟩ := withDevice_success h ht
  obtain ⟨bs, hreq, hout⟩ := deliverFrame_success (check_success (check_success h ht) ht) ht
  exact ⟨bs, row, hout, hrow, hreq⟩

theorem execFeSelftest_success (h : execFeSelftest f s = .next t) (ht : t.status = 0) :
    ∃ bs, t.dout = bytes bs ∧ req Config.cmdSelftest s.params.stSub s.params.stData = some bs := by
  obtain ⟨-, -, h⟩ := issue_next h
  obtain ⟨bs, hreq, hout⟩ := deliverFrame_success h ht
  exact ⟨bs, hout, hreq⟩

/-- A frame that `req` defines reads back as the well-formed instruction that is encoded by the same fields. -/
theorem decodeOutbound_req {cmd sub : Word} {data bs : List Byte} {i : Instr} (hreq : req cmd sub data = some bs)
    (hi : encode i = .outbound (encodeRequest cmd sub data)) (hwf : data.length ≤ 65529 → i.wf = true) :
    decodeOutbound bs = .ok i := by
  have hlen : 6 + data.length ≤ 0xFFFF := by
    by_contra hlong
    rw [req_none (by omega)] at hreq
    cases hreq
  rw [req_eq_encodeRequest hlen] at hreq
  have hdecode := Proofs.decodeOfEncode i (hwf (by omega))
  rwa [hi, Option.some.inj hreq] at hdecode

end

end Sys2Proof.Machine
end

section
/-! SUPPORT. Why no step of a machine with allowed parameters is a fault: `req` is defined for every frame that the
limits let through, and what a port decodes is well formed (spec/41_frame_encoder.md R150, R154, R156; log 19). -/

namespace Sys2Proof.Machine

open Claims

/-- The outcome is no fault: what `Safe` asks of every step of a run. -/
def Faultless (o : Out) : Prop := ∀ r, o ≠ .fault r

section
variable {s : State}

theorem Faultless.next (t : State) : Faultless (.next t) := fun _ h => nomatch h

theorem Faultless.refused (r : Refusal) : Faultless (.refused r) := fun _ h => nomatch h

theorem Faultless.issue {op : Byte} {f : CwFields} {k : State → Out} (h : Faultless (k (s.loadOperands op f))) :
    Faultless (issue op f s k) := fun r hr => h r (issue_fault hr)

theorem Faultless.withDin {α : Type} {as? : Item → Option α} {k : List α → Out} (h : ∀ xs, Faultless (k xs)) :
    Faultless (withDin as? s k) := by
  intro r hr
  obtain ⟨xs, -, hk⟩ := withDin_fault hr
  exact h xs r hk

theorem Faultless.withDevice {k : DevRow → Out} (h : ∀ row, Faultless (k row)) : Faultless (withDevice s k) := by
  intro r hr
  obtain ⟨row, -, hk⟩ := withDevice_fault hr
  exact h row r hk

theorem Faultless.withLayout {k : Out} (h : Faultless k) : Faultless (withLayout s k) :=
  fun r hr => h r (withLayout_fault hr)

theorem Faultless.ite {p : Prop} [Decidable p] {a b : Out} (ha : p → Faultless a) (hb : ¬p → Faultless b) :
    Faultless (if p then a else b) := by
  split
  · exact ha ‹p›
  · exact hb ‹¬p›

/-- An error completion, or else what follows. -/
theorem Faultless.check {p : Prop} [Decidable p] {t : State} {o : Out} (h : ¬p → Faultless o) :
    Faultless (if p then .next t else o) := .ite (fun _ => .next t) h

theorem Faultless.req {cmd sub : Word} {data : List Byte} (h : data.length ≤ 65529) :
    Faultless (deliverFrame s (req cmd sub data)) := by
  rw [req_eq_encodeRequest (by omega)]
  exact .next _

theorem Faultless.arrive (bs : List Byte) : Faultless (arrive bs s) :=
  .ite (fun _ => .next _) (fun _ => .refused _)

/-- What the spec asks of the two parameters a frame's length depends on (spec/41_frame_encoder.md R154, R156). -/
theorem params_ok_frames {p : Params} (h : p.ok = true) : p.maxPayload ≤ 65523 ∧ p.stData.length ≤ 65529 := by
  simp only [Params.ok, Bool.and_eq_true, decide_eq_true_eq] at h
  obtain ⟨⟨⟨⟨⟨⟨⟨-, hpayload⟩, -⟩, -⟩, -⟩, hdata⟩, -⟩, -⟩ := h
  exact ⟨hpayload, hdata⟩

/-- A well-formed instruction faults for no parameters that the spec allows. -/
theorem exec_faultless {i : Instr} (hp : s.params.ok = true) (hwf : i.wf = true) : Faultless (exec i s) := by
  obtain ⟨hpayload, hdata⟩ := params_ok_frames hp
  cases i with rw [exec]
  | dtKind f => exact .issue <| .withDevice fun _ => .next _
  | dtCode f => exact .issue <| .withDevice fun _ => .next _
  | dtSubcmd f => exact .issue <| .withDevice fun _ => .next _
  | feRead f => exact .issue <| .withDevice fun row => .check fun _ => .req (by rw [dev6_length]; decide)
  | feWrite f =>
    refine .issue <| .withDin fun payload => .withDevice fun row => .check fun _ => .check fun hmax => .req ?_
    rw [State.loadOperands_params] at hmax
    rw [List.length_append, dev6_length]
    omega
  | feSelftest f => exact .issue <| .req hdata
  | rdRecv f => exact .issue <| .next _
  | bcEnc f => exact .issue <| .withDin fun _ => .next _
  | bcDec f => exact .issue <| .withDin fun _ => .check fun _ => .next _
  | wcEnc f => exact .issue <| .withDin fun _ => .next _
  | wcDec f => exact .issue <| .withDin fun _ => .check fun _ => .next _
  | wcSenc f => exact .issue <| .withDin fun _ => .next _
  | wcSdec f => exact .issue <| .withDin fun _ => .check fun _ => .check fun _ => .next _
  | rmLayout f =>
    refine .issue <| .withDin fun ds => ?_
    dsimp only
    refine .check fun _ => ?_
    split <;> exact .next _
  | rmSizeof f => exact .issue <| .withLayout <| .next _
  | rmDec f => exact .issue <| .withDin fun _ => .withLayout <| .check fun _ => .next _
  | rmEnc f =>
    refine .issue <| .withDin fun vs => .withLayout <| .check fun _ => ?_
    split <;> exact .next _
  | reqRead k addr code count => exact .next _
  | reqWrite k addr code count payload => exact .ite (fun _ => .next _) fun hno => absurd hwf hno
  | reqSelftest sub data => exact .ite (fun _ => .next _) fun hno => absurd hwf hno
  | respD0 routing body => exact .ite (fun _ => .arrive _) fun _ => .refused _
  | respD4 routing body => exact .ite (fun _ => .arrive _) fun _ => .refused _

/-! ### One step -/

theorem issueStep_faultless (hp : s.params.ok = true) (cw : CmdWord) (din : List Item) (rest : List HostAct) :
    Faultless (issueStep cw din rest s) := by
  refine .check fun _ => ?_
  split
  · next hi => exact exec_faultless hp (wf_of_encode_command (decodeCommand_ok hi))
  · exact .next _

theorem sendStep_faultless (hp : s.params.ok = true) (bs : List Byte) : Faultless (sendStep bs s) := by
  unfold sendStep
  split
  · next i hi =>
    obtain ⟨hwf, -⟩ := Proofs.encodeOfDecode (.outbound bs) i hi
    exact exec_faultless hp hwf
  · exact .next _

theorem hostStep_faultless (hp : s.params.ok = true) : Faultless (hostStep s) := by
  unfold hostStep
  split
  · exact .next _
  · exact issueStep_faultless hp _ _ _
  · exact sendStep_faultless (by exact hp) _
  · exact .next _
  · exact .next _
  · exact .next _

theorem blockStep_faultless : Faultless (blockStep s) := by
  unfold blockStep
  split <;> exact .next _

theorem transportStep_faultless : Faultless (transportStep s) := by
  refine .ite (fun hopen => ?_) fun _ => .next _
  split
  · exact .next _
  · rw [appendStep_open (by exact hopen)]
    exact .next _
  · exact .next _

theorem agentStep_faultless (hp : s.params.ok = true) (a : Agent) : Faultless (agentStep a s) := by
  cases a with
  | host => exact hostStep_faultless hp
  | block => exact blockStep_faultless
  | transport => exact transportStep_faultless

theorem step_faultless (hp : s.params.ok = true) : Faultless (step s) := by
  unfold step oneStep
  split
  · exact agentStep_faultless (by exact hp) _
  · split
    · exact agentStep_faultless hp _
    · exact .next _

end

end Sys2Proof.Machine
end

section
/-! The statements of the family of the frame encoder. -/

namespace Sys2Proof.Proofs

open Machine Claims

/-- Settles O7: a delivered frame is one that `req` defines, and `req` agrees with the encoder of the wire format, which
the decoder inverts. -/
theorem frameEncoderMeetsTheWireFormat : Obligations.FrameEncoderMeetsTheWireFormat := by
  intro f s t payload hdin ht
  refine ⟨fun h => ?_, fun h => ?_, fun h => ?_⟩
  · obtain ⟨bs, row, hout, hrow, hreq⟩ := execFeRead_success h ht
    rw [subcommand_eq_kindSub, dev6_eq_encodeDevice] at hreq
    exact ⟨bs, row, hout, hrow, decodeOutbound_req hreq rfl fun _ => rfl⟩
  · obtain ⟨bs, row, hout, hrow, hreq⟩ := execFeWrite_success hdin h ht
    rw [subcommand_eq_kindSub, dev6_eq_encodeDevice] at hreq
    refine ⟨bs, row, hout, hrow, decodeOutbound_req hreq rfl fun hlen => decide_eq_true ?_⟩
    rw [List.length_append, encodeDevice_length] at hlen
    omega
  · obtain ⟨bs, hout, hreq⟩ := execFeSelftest_success h ht
    exact ⟨bs, hout, decodeOutbound_req hreq rfl decide_eq_true⟩

/-- Settles O56, by induction on the number of steps: a sound state has allowed parameters, with which no step is a
fault, and the next state is sound again. -/
theorem soundRunsNeverFault : Obligations.SoundRunsNeverFault := by
  intro n
  induction n with
  | zero => exact fun s _ => Faultless.next s
  | succ n ih =>
    intro s hs r hrun
    obtain ⟨hp, -⟩ := (sound_iff s).mp hs
    rw [Host.Core.run] at hrun
    split at hrun
    · next t hstep => exact ih t (everyStepKeepsTheStateSound s t hs hstep) r hrun
    · next hstep => exact step_faultless hp _ hstep
    · cases hrun

/-- Settles O4: the two checks in their order, then the frame of the wire format without a payload. -/
theorem feReadBuildsTheReadFrame : Obligations.FeReadBuildsTheReadFrame := by
  intro f s h
  rw [exec, execFeRead]
  refine ⟨issue_withDevice_beyond h, fun row hrow => ?_⟩
  rw [issue_withDevice_row h hrow]
  refine ⟨fun hcount => ?_, fun hcount hfits => ?_⟩
  · rw [if_pos (by exact hcount), loadOperands_complete, errStatus_countLimit]
  · have hframe := deliverFrame_device (op := 0x20) (f := f) (cmd := Config.cmdRead) (row := row) (payload := [])
      (Nat.zero_le _) hfits
    rw [encodeRequest_device, List.append_nil, List.append_nil] at hframe
    rw [if_neg (by exact Nat.not_lt.mpr hcount)]
    exact hframe

/-- Settles O5: the three checks in their order, then the frame of the wire format around the payload. -/
theorem feWriteBuildsTheWriteFrame : Obligations.FeWriteBuildsTheWriteFrame := by
  intro f s payload h hdin hmax
  rw [exec, execFeWrite, issue_withDin_bytes h hdin]
  refine ⟨issue_withDevice_beyond h, fun row hrow => ?_⟩
  rw [issue_withDevice_row h hrow]
  refine ⟨fun hcount => ?_, fun hcount hlong => ?_, fun hcount hlen hfits => ?_⟩
  · rw [if_pos (by exact hcount), loadOperands_complete, errStatus_countLimit]
  · rw [if_neg (by exact Nat.not_lt.mpr hcount), if_pos (by exact hlong), loadOperands_complete,
      errStatus_frameLength]
  · have hframe := deliverFrame_device (op := 0x21) (f := f) (cmd := Config.cmdWrite) (row := row)
      (hlen.trans hmax) hfits
    rw [encodeRequest_device] at hframe
    rw [if_neg (by exact Nat.not_lt.mpr hcount), if_neg (by exact Nat.not_lt.mpr hlen)]
    exact hframe

/-- Settles O6: `req` is defined for the data, and its frame is written out by offset. -/
theorem feSelftestBuildsTheSelftestFrame : Obligations.FeSelftestBuildsTheSelftestFrame := by
  intro f s h hdata hfits
  obtain ⟨hb, hd⟩ := h
  rw [exec, execFeSelftest, issue_ready hb hd]
  exact deliverFrame_req hdata hfits

end Sys2Proof.Proofs
end

section
/-! SUPPORT. The transport pull (spec/42_response_decoder.md R171) on each side of how many bytes the stream holds, and
a continuation of `RD.RECV` as the pull of its phase (R173 to R175). -/

namespace Sys2Proof.Machine

/-! ### Errors -/

/-- TransportIo is kind 3, and the end of the stream its sub-cause 1 (spec/60_exceptions.md R281, R282). -/
theorem errStatus_eof : errStatus .transportIo .eof 0 = 0x000013 := by decide

/-- TransportIo is kind 3, and a failed stream its sub-cause 2 (spec/60_exceptions.md R281, R282). -/
theorem errStatus_ioError : errStatus .transportIo .ioError 0 = 0x000023 := by decide

/-- MalformedFrame is kind 4, and the invalid start its sub-cause 1 (spec/60_exceptions.md R281, R282). -/
theorem errStatus_invalidStart : errStatus .malformedFrame .invalidStart 0 = 0x000014 := by decide

/-- MalformedFrame is kind 4, and the short body its sub-cause 2 (spec/60_exceptions.md R281, R282). -/
theorem errStatus_shortBody : errStatus .malformedFrame .shortBody 0 = 0x000024 := by decide

/-- Capacity is kind 13, and the body limit its sub-cause 3 (spec/60_exceptions.md R281, R282). -/
theorem errStatus_bodyLimit : errStatus .capacity .bodyLimit 0 = 0x00003d := by decide

/-- Capacity is kind 13, and the item limit its sub-cause 6 (spec/60_exceptions.md R281, R282). -/
theorem errStatus_itemLimit : errStatus .capacity .itemLimit 0 = 0x00006d := by decide

section
variable {n : Nat} {s : State} {k : List Byte → State → State}

/-! ### The pull -/

theorem rxReadExact_bytes (h : n ≤ s.rxBytes.length) :
    rxReadExact n s = (.bytes (s.rxBytes.take n), { s with rxBytes := s.rxBytes.drop n }) :=
  if_pos h

theorem rxReadExact_short (h : s.rxBytes.length < n) :
    (s.rxTerm = .eof → rxReadExact n s = (.eof, { s with rxBytes := [] })) ∧
    (s.rxTerm = .ioError → rxReadExact n s = (.ioError, { s with rxBytes := [] })) ∧
    (s.rxTerm = .stillOpen → rxReadExact n s = (.wait, s)) := by
  rw [rxReadExact, if_neg (Nat.not_le.mpr h)]
  refine ⟨fun ht => ?_, fun ht => ?_, fun ht => ?_⟩ <;> rw [ht]

/-! ### A step on its pull -/

theorem pullThen_bytes (h : n ≤ s.rxBytes.length) :
    pullThen (rxReadExact n s) k = some (k (s.rxBytes.take n) { s with rxBytes := s.rxBytes.drop n }) := by
  rw [rxReadExact_bytes h, pullThen]

/-- The same with the bytes of the pull named. -/
theorem pullThen_append {got rest : List Byte} (hrx : s.rxBytes = got ++ rest) (hn : got.length = n) :
    pullThen (rxReadExact n s) k = some (k got { s with rxBytes := rest }) := by
  subst hn
  rw [pullThen_bytes (by simp [hrx]), hrx, List.take_left, List.drop_left]

theorem pullThen_short (h : s.rxBytes.length < n) :
    (s.rxTerm = .eof → pullThen (rxReadExact n s) k = some ({ s with rxBytes := [] }.complete .transportIo .eof 0)) ∧
    (s.rxTerm = .ioError →
      pullThen (rxReadExact n s) k = some ({ s with rxBytes := [] }.complete .transportIo .ioError 0)) ∧
    (s.rxTerm = .stillOpen → pullThen (rxReadExact n s) k = none) := by
  obtain ⟨heof, hio, hopen⟩ := rxReadExact_short h
  refine ⟨fun ht => ?_, fun ht => ?_, fun ht => ?_⟩
  · rw [heof ht, pullThen]
  · rw [hio ht, pullThen]
  · rw [hopen ht, pullThen]

/-- Work that leaves the stream alone leaves what the pull left, the end of what was there. -/
theorem pullThen_suffix {t : State} (hk : ∀ got u, (k got u).rxBytes = u.rxBytes)
    (h : pullThen (rxReadExact n s) k = some t) : ∃ m, t.rxBytes = s.rxBytes.drop m := by
  obtain ⟨-, rfl⟩ | ⟨-, c, -, rfl⟩ := pullThen_some h
  · exact ⟨n, hk _ _⟩
  · exact ⟨s.rxBytes.length, List.drop_length.symm⟩

/-! ### The continuation steps by phase -/

theorem recvStep_idle (h : s.phase = .idle) : recvStep s = none := by
  rw [recvStep, h]

theorem recvStep_waitStart (h : s.phase = .waitStart) : recvStep s = pullThen (rxReadExact 1 s) onStart := by
  rw [recvStep, h]

theorem recvStep_waitSubhdr (h : s.phase = .waitSubhdr) :
    recvStep s = pullThen (rxReadExact s.shl.toNat s) onSubhdr := by
  rw [recvStep, h]

theorem recvStep_waitBody (h : s.phase = .waitBody) :
    recvStep s = pullThen (rxReadExact s.blen.toNat s) onBody := by
  rw [recvStep, h]

end

/-! ### The work of each phase leaves the stream alone -/

theorem onStart_rxBytes (got : List Byte) (s : State) : (onStart got s).rxBytes = s.rxBytes := by
  simp only [onStart]
  split
  · rfl
  · split <;> rfl

theorem onSubhdr_rxBytes (got : List Byte) (s : State) : (onSubhdr got s).rxBytes = s.rxBytes := rfl

/-- Both ends of an operation that produces a sequence leave the stream alone. -/
theorem finish_stream (s : State) (out : List Item) :
    (s.finish out).rxBytes = s.rxBytes ∧ (s.finish out).rxTerm = s.rxTerm ∧ (s.finish out).phase = .idle := by
  obtain ⟨-, he⟩ | ⟨-, he⟩ := finish_cases s out
  · rw [he]
    exact ⟨rfl, rfl, rfl⟩
  · rw [he]
    exact ⟨rfl, rfl, rfl⟩

theorem onBody_rxBytes (got : List Byte) (s : State) : (onBody got s).rxBytes = s.rxBytes := by
  simp only [onBody]
  split
  · rfl
  split
  · rfl
  split
  · rfl
  · exact (finish_stream _ _).1

/-- A continuation step takes bytes from the front of the stream, if any (spec/42_response_decoder.md R171). -/
theorem recvStep_suffix {s t : State} (h : recvStep s = some t) : ∃ n, t.rxBytes = s.rxBytes.drop n := by
  cases hp : s.phase with
  | idle => exact absurd ((recvStep_idle hp).symm.trans h) nofun
  | waitStart => exact pullThen_suffix onStart_rxBytes (recvStep_waitStart hp ▸ h)
  | waitSubhdr => exact pullThen_suffix onSubhdr_rxBytes (recvStep_waitSubhdr hp ▸ h)
  | waitBody => exact pullThen_suffix onBody_rxBytes (recvStep_waitBody hp ▸ h)

/-! ### The work of the start step by its byte -/

theorem onStart_valid {b : Byte} {shl : Nat} (s : State) (h : discLength b = some shl) :
    onStart [b] s = { s with shl := BitVec.ofNat 4 shl, phase := .waitSubhdr } := by
  simp only [discLength] at h
  simp only [onStart, List.getD_cons_zero]
  split at h
  · next hb =>
    cases h
    rw [if_pos hb]
    rfl
  split at h
  · next hb hb' =>
    cases h
    rw [if_neg hb, if_pos hb']
    rfl
  · cases h

theorem onStart_invalid {b : Byte} (s : State) (h : discLength b = none) :
    onStart [b] s = s.complete .malformedFrame .invalidStart 0 := by
  simp only [discLength] at h
  simp only [onStart, List.getD_cons_zero]
  split at h
  · cases h
  split at h
  · cases h
  · next hb hb' => rw [if_neg hb, if_neg hb']

/-- A valid first byte asks for 8 or 12 sub-header bytes. -/
theorem discLength_some {b : Byte} {shl : Nat} (h : discLength b = some shl) : shl = 8 ∨ shl = 12 := by
  unfold discLength at h
  split at h
  · exact .inl (Option.some.inj h).symm
  split at h
  · exact .inr (Option.some.inj h).symm
  · cases h

theorem two_le_discLength {b : Byte} {shl : Nat} (h : discLength b = some shl) : 2 ≤ shl := by
  obtain rfl | rfl := discLength_some h <;> decide

end Sys2Proof.Machine
end

section
/-! SUPPORT. The stream function `recvAll` (spec/42_response_decoder.md R179) cut where the continuation steps cut it:
what is left of it after the start byte, and after the sub-header. -/

namespace Sys2Proof.Machine

/-! ### The end a body leads to -/

/-- How `RD.RECV` ends with all bytes of its body there, in the order of the checks (spec/42_response_decoder.md
R175). -/
def bodyEnd (maxBody : Nat) (body : List Byte) : RecvEnd :=
  if body.length > maxBody then .error .capacity .bodyLimit 0
  else if body.length < 2 then .error .malformedFrame .shortBody 0
  else if un16 (body.getD 0 0) (body.getD 1 0) ≠ 0 then
    .error .remoteStatusError .none (un16 (body.getD 0 0) (body.getD 1 0))
  else .ok (body.drop 2)

/-- `recvAll` from the body step on: `l` bytes are asked for. -/
def recvFromBody (maxBody l : Nat) (bs : List Byte) (t : RxTerm) : RecvEnd :=
  if bs.length < l then recvIo t else bodyEnd maxBody (bs.take l)

/-- The body length that `shl` sub-header bytes announce in their last two (spec/42_response_decoder.md R174). -/
def announced (shl : Nat) (bs : List Byte) : Word := un16 (bs.getD (shl - 2) 0) (bs.getD (shl - 1) 0)

/-- `recvAll` from the sub-header step on: `shl` bytes are asked for. -/
def recvFromSubhdr (maxBody shl : Nat) (bs : List Byte) (t : RxTerm) : RecvEnd :=
  if bs.length < shl then recvIo t else recvFromBody maxBody (announced shl bs).toNat (bs.drop shl) t

/-! ### The checks of the body -/

section
variable {maxBody : Nat} {body : List Byte}

theorem bodyEnd_beyond (h : maxBody < body.length) : bodyEnd maxBody body = .error .capacity .bodyLimit 0 :=
  if_pos h

theorem bodyEnd_short (hmax : body.length ≤ maxBody) (h : body.length < 2) :
    bodyEnd maxBody body = .error .malformedFrame .shortBody 0 := by
  rw [bodyEnd, if_neg (Nat.not_lt.mpr hmax), if_pos h]

theorem bodyEnd_status {s0 s1 : Byte} {payload : List Byte} (hmax : (s0 :: s1 :: payload).length ≤ maxBody) :
    bodyEnd maxBody (s0 :: s1 :: payload) =
      if un16 s0 s1 ≠ 0 then .error .remoteStatusError .none (un16 s0 s1) else .ok payload := by
  rw [bodyEnd, if_neg (Nat.not_lt.mpr hmax), if_neg (by simp)]
  rfl

theorem bodyEnd_ne_pending (maxBody : Nat) (body : List Byte) : bodyEnd maxBody body ≠ .pending := by
  unfold bodyEnd
  split
  · simp
  split
  · simp
  split <;> simp

end

/-! ### `recvAll` and the bytes it removes, by the first byte -/

section
variable {b : Byte} {shl : Nat}

theorem announced_take (bs : List Byte) (h : 2 ≤ shl) : announced shl (bs.take shl) = announced shl bs := by
  simp only [announced, List.getD_eq_getElem?_getD]
  rw [List.getElem?_take_of_lt (by omega), List.getElem?_take_of_lt (by omega)]

theorem announced_append {routing : List Byte} (l0 l1 : Byte) (rest : List Byte) (h : routing.length + 2 = shl) :
    announced shl (routing ++ l0 :: l1 :: rest) = un16 l0 l1 := by
  subst h
  have hlow : (routing ++ l0 :: l1 :: rest).getD routing.length 0 = l0 := by simp
  have hhigh : (routing ++ l0 :: l1 :: rest).getD (routing.length + 1) 0 = l1 := by simp
  exact congrArg₂ un16 hlow hhigh

/-- The length field is found at the same place before the first byte is taken. -/
theorem announced_cons (bs : List Byte) (h : 2 ≤ shl) :
    un16 ((b :: bs).getD (shl - 1) 0) ((b :: bs).getD shl 0) = announced shl bs := by
  obtain ⟨m, rfl⟩ := Nat.exists_eq_add_of_le' h
  rfl

theorem recvAll_invalid (maxBody : Nat) (bs : List Byte) (t : RxTerm) (h : discLength b = none) :
    recvAll maxBody (b :: bs) t = .error .malformedFrame .invalidStart 0 := by
  simp only [recvAll, h]

/-- The checks of the body in terms of the whole stream, whose bytes of status and payload follow the first byte and the
sub-header. -/
theorem bodyEnd_within {maxBody l : Nat} {bs : List Byte} (h : l ≤ bs.length - shl) :
    bodyEnd maxBody ((bs.drop shl).take l) =
      if l > maxBody then .error .capacity .bodyLimit 0
      else if l < 2 then .error .malformedFrame .shortBody 0
      else
        let st := un16 ((b :: bs).getD (shl + 1) 0) ((b :: bs).getD (shl + 2) 0)
        if st ≠ 0 then .error .remoteStatusError .none st
        else .ok (((b :: bs).take (1 + shl + l)).drop (shl + 3)) := by
  have hlen : ((bs.drop shl).take l).length = l := by
    rw [List.length_take, List.length_drop, Nat.min_eq_left h]
  have hpayload : ((bs.drop shl).take l).drop 2 = ((b :: bs).take (1 + shl + l)).drop (shl + 3) := by
    rw [List.take_drop, List.drop_drop, show 1 + shl + l = shl + l + 1 by omega, List.take_succ_cons,
      List.drop_succ_cons]
  have hbyte : 2 ≤ l → ∀ i < 2, ((bs.drop shl).take l).getD i 0 = bs.getD (shl + i) 0 := by
    intro hl i hi
    rw [List.getD_eq_getElem?_getD, List.getElem?_take_of_lt (by omega), List.getElem?_drop,
      List.getD_eq_getElem?_getD]
  simp only [bodyEnd, hlen]
  split
  · rfl
  split
  · rfl
  next hl =>
    rw [hbyte (by omega) 0 (by decide), hbyte (by omega) 1 (by decide), hpayload]
    rfl

theorem recvAll_valid (maxBody : Nat) (bs : List Byte) (t : RxTerm) (h : discLength b = some shl) :
    recvAll maxBody (b :: bs) t = recvFromSubhdr maxBody shl bs t := by
  have hshl := two_le_discLength h
  simp only [recvAll, h, recvFromSubhdr, recvFromBody, List.length_cons, List.length_drop, announced_cons bs hshl]
  by_cases hsub : bs.length < shl
  · rw [if_pos hsub, if_pos (by omega)]
  rw [if_neg hsub, if_neg (by omega)]
  by_cases hbody : bs.length - shl < (announced shl bs).toNat
  · rw [if_pos hbody, if_pos (by omega)]
  · rw [if_neg hbody, if_neg (by omega), bodyEnd_within (b := b) (Nat.not_lt.mp hbody)]

/-- What stays in the stream after a valid first byte, the sub-header and the body, as far as they are there
(spec/42_response_decoder.md R178). -/
theorem drop_recvRemoved_valid (bs : List Byte) (h : discLength b = some shl) :
    (b :: bs).drop (recvRemoved (b :: bs)) = (bs.drop shl).drop (announced shl bs).toNat := by
  have hshl := two_le_discLength h
  simp only [recvRemoved, h, announced_cons bs hshl]
  split
  · next hsub =>
    have hall : bs.drop shl = [] := List.drop_eq_nil_of_le (by rw [List.length_cons] at hsub; omega)
    rw [List.drop_length, hall, List.drop_nil]
  · rw [Nat.min_comm, ← List.drop_eq_drop_min, List.drop_drop, show ∀ l, 1 + shl + l = shl + l + 1 by omega,
      List.drop_succ_cons]

theorem drop_recvRemoved_invalid (bs : List Byte) (h : discLength b = none) :
    (b :: bs).drop (recvRemoved (b :: bs)) = bs := by
  simp only [recvRemoved, h, List.drop_succ_cons, List.drop_zero]

end

end Sys2Proof.Machine
end

section
/-! SUPPORT. The three continuation steps of `RD.RECV` together are its stream function: where they stop, and from which
state (spec/42_response_decoder.md R179). -/

namespace Sys2Proof.Machine

open Claims

/-! ### The completion an end stands for -/

/-- The completion that an end of the stream function stands for. -/
def State.endAs (s : State) : RecvEnd → State
  | .error kind sub code => s.complete kind sub code
  | .ok payload => s.finish (payload.map .byte)
  | .pending => s

theorem endAs_rxBytes (s : State) (e : RecvEnd) : (s.endAs e).rxBytes = s.rxBytes := by
  cases e with
  | error => rfl
  | ok => exact (finish_stream _ _).1
  | pending => rfl

theorem endAs_rxTerm (s : State) (e : RecvEnd) : (s.endAs e).rxTerm = s.rxTerm := by
  cases e with
  | error => rfl
  | ok => exact (finish_stream _ _).2.1
  | pending => rfl

theorem endAs_phase {s : State} {e : RecvEnd} (h : e ≠ .pending) : (s.endAs e).phase = .idle := by
  cases e with
  | error => rfl
  | ok => exact (finish_stream _ _).2.2
  | pending => exact absurd rfl h

/-- With a payload that `DOUT` holds, the success as the claims write it out. -/
theorem endAs_ok {s : State} {payload : List Byte} (h : Fits s payload.length) :
    s.endAs (.ok payload) = { s with
      dout := bytes payload, olen := BitVec.ofNat 32 payload.length, status := 0, phase := .idle, busy := false } := by
  obtain ⟨hcap, hsmall⟩ := h
  have hlen : (bytes payload).length = payload.length := List.length_map _
  rw [State.endAs, finish_fits (by rwa [hlen]), State.doneWith, hlen, olenOf_small hsmall]

/-- With a payload that `DOUT` cannot hold, Capacity(ITEM_LIMIT) (spec/60_exceptions.md R287). -/
theorem endAs_ok_beyond {s : State} {payload : List Byte} (h : s.overCapacity payload.length = true) :
    s.endAs (.ok payload) = s.complete .capacity .itemLimit 0 :=
  if_pos (by rwa [List.length_map])

/-- The fields of `STATUS` after an error completion. -/
theorem complete_status_fields (s : State) (k : ErrKind) (c : SubCause) (v : Word) :
    (s.complete k c v).err = errCode k ∧ (s.complete k c v).sub = subCode c ∧ (s.complete k c v).code = v :=
  packStatus_fields _ _ _

/-! ### The work of a phase on all its bytes -/

/-- The sub-header step takes the announced length. -/
theorem onSubhdr_eq_announced (got : List Byte) (s : State) :
    onSubhdr got s = { s with blen := announced s.shl.toNat got, phase := .waitBody } := rfl

/-- The body step completes as its checks say. -/
theorem onBody_eq_endAs {s : State} {body : List Byte} (h : body.length = s.blen.toNat) :
    onBody body s = s.endAs (bodyEnd s.params.maxBody body) := by
  simp only [onBody, bodyEnd, ← h]
  split
  · rfl
  split
  · rfl
  split <;> rfl

/-! ### Where the steps from a state end -/

/-- From `s` on the steps reach `t`, having taken bytes and set `RD.PHASE`, `RD.SHL` and `RD.BLEN` only. There they end
as `e` with `left` in the stream, or they wait. -/
structure Receives (s t : State) (e : RecvEnd) (left : List Byte) : Prop where
  progress : t = { s with rxBytes := t.rxBytes, phase := t.phase, shl := t.shl, blen := t.blen }
  waits : e = .pending → t.phase ≠ .idle ∧ recvStep t = none
  leaves : e ≠ .pending → t.rxBytes = left

/-- A step that only goes on to the next phase does not show in how the steps end. -/
theorem Receives.after {s v t : State} {e : RecvEnd} {left : List Byte} (h : Receives v t e left)
    (hv : v = { s with rxBytes := v.rxBytes, phase := v.phase, shl := v.shl, blen := v.blen }) :
    Receives s t e left where
  progress := h.progress.trans
    (congrArg (fun w : State => { w with rxBytes := t.rxBytes, phase := t.phase, shl := t.shl, blen := t.blen }) hv)
  waits := h.waits
  leaves := h.leaves

/-- What the steps leave as it was until they end. -/
theorem Receives.frame {s t : State} {e : RecvEnd} {left : List Byte} (h : Receives s t e left) :
    t.params = s.params ∧ t.rxTerm = s.rxTerm ∧ t.busy = s.busy ∧ t.status = s.status ∧ t.dout = s.dout := by
  rw [h.progress]
  exact ⟨rfl, rfl, rfl, rfl, rfl⟩

theorem recvSteps_none {s : State} (h : recvStep s = none) (n : Nat) : recvSteps n s = s := by
  cases n with
  | zero => rfl
  | succ n => simp only [recvSteps, h]

theorem recvSteps_some {s t : State} (h : recvStep s = some t) (n : Nat) : recvSteps (n + 1) s = recvSteps n t := by
  simp only [recvSteps, h]

theorem recvSteps_endAs {s : State} {e : RecvEnd} (h : e ≠ .pending) (n : Nat) :
    recvSteps n (s.endAs e) = s.endAs e :=
  recvSteps_none (recvStep_idle (endAs_phase h)) n

section
variable {s : State}

/-- A pull that needs more than the stream holds ends as `recvIo` says, and the end of the stream empties it. -/
theorem receives_short {n : Nat} {k : List Byte → State → State} (hstep : recvStep s = pullThen (rxReadExact n s) k)
    (hp : s.phase ≠ .idle) (h : s.rxBytes.length < n) (m : Nat) :
    ∃ t, recvSteps (m + 1) s = t.endAs (recvIo s.rxTerm) ∧ Receives s t (recvIo s.rxTerm) [] := by
  obtain ⟨heof, hio, hopen⟩ := pullThen_short (k := k) h
  rw [← hstep] at heof hio hopen
  cases ht : s.rxTerm with
  | stillOpen =>
    exact ⟨s, recvSteps_none (hopen ht) _, rfl, fun _ => ⟨hp, hopen ht⟩, fun hne => absurd rfl hne⟩
  | eof =>
    exact ⟨{ s with rxBytes := [] }, (recvSteps_some (heof ht) m).trans (recvSteps_endAs (e := recvIo .eof) nofun m),
      rfl, nofun, fun _ => rfl⟩
  | ioError =>
    exact ⟨{ s with rxBytes := [] },
      (recvSteps_some (hio ht) m).trans (recvSteps_endAs (e := recvIo .ioError) nofun m), rfl, nofun, fun _ => rfl⟩

/-- From the body step on. -/
theorem receives_body (hp : s.phase = .waitBody) (n : Nat) :
    ∃ t, recvSteps (n + 1) s = t.endAs (recvFromBody s.params.maxBody s.blen.toNat s.rxBytes s.rxTerm) ∧
      Receives s t (recvFromBody s.params.maxBody s.blen.toNat s.rxBytes s.rxTerm)
        (s.rxBytes.drop s.blen.toNat) := by
  have hstep := recvStep_waitBody hp
  unfold recvFromBody
  split
  · next hshort =>
    rw [List.drop_eq_nil_of_le hshort.le]
    exact receives_short hstep (by rw [hp]; decide) hshort n
  · next hlong =>
    have hle := Nat.not_lt.mp hlong
    have hend := bodyEnd_ne_pending s.params.maxBody (s.rxBytes.take s.blen.toNat)
    refine ⟨{ s with rxBytes := s.rxBytes.drop s.blen.toNat }, ?_, rfl, fun he => absurd he hend, fun _ => rfl⟩
    rw [pullThen_bytes hle, onBody_eq_endAs (by exact List.length_take_of_le hle)] at hstep
    exact (recvSteps_some hstep n).trans (recvSteps_endAs hend n)

/-- From the sub-header step on. -/
theorem receives_subhdr (hp : s.phase = .waitSubhdr) (hshl : 2 ≤ s.shl.toNat) (n : Nat) :
    ∃ t, recvSteps (n + 2) s = t.endAs (recvFromSubhdr s.params.maxBody s.shl.toNat s.rxBytes s.rxTerm) ∧
      Receives s t (recvFromSubhdr s.params.maxBody s.shl.toNat s.rxBytes s.rxTerm)
        ((s.rxBytes.drop s.shl.toNat).drop (announced s.shl.toNat s.rxBytes).toNat) := by
  have hstep := recvStep_waitSubhdr hp
  unfold recvFromSubhdr
  split
  · next hshort =>
    rw [List.drop_eq_nil_of_le hshort.le, List.drop_nil]
    exact receives_short hstep (by rw [hp]; decide) hshort (n + 1)
  · next hlong =>
    rw [pullThen_bytes (Nat.not_lt.mp hlong), onSubhdr_eq_announced, announced_take _ hshl] at hstep
    obtain ⟨t, hsteps, ht⟩ := receives_body (s := { s with
      rxBytes := s.rxBytes.drop s.shl.toNat, blen := announced s.shl.toNat s.rxBytes, phase := .waitBody }) rfl n
    exact ⟨t, (recvSteps_some hstep (n + 1)).trans hsteps, ht.after rfl⟩

/-- The whole operation, from the start step on. -/
theorem receives_start (hp : s.phase = .waitStart) :
    ∃ t, recvSteps 3 s = t.endAs (recvAll s.params.maxBody s.rxBytes s.rxTerm) ∧
      Receives s t (recvAll s.params.maxBody s.rxBytes s.rxTerm) (s.rxBytes.drop (recvRemoved s.rxBytes)) := by
  have hstep := recvStep_waitStart hp
  cases hrx : s.rxBytes with
  | nil => exact receives_short hstep (by rw [hp]; decide) (by rw [hrx]; decide) 2
  | cons b rest =>
    rw [pullThen_append (n := 1) (got := [b]) hrx rfl] at hstep
    cases hdisc : discLength b with
    | none =>
      rw [onStart_invalid _ hdisc] at hstep
      rw [recvAll_invalid _ _ _ hdisc, drop_recvRemoved_invalid _ hdisc]
      exact ⟨{ s with rxBytes := rest }, (recvSteps_some hstep 2).trans (recvSteps_endAs (e := .error _ _ _) nofun 2),
        rfl, nofun, fun _ => rfl⟩
    | some shl =>
      have hle := two_le_discLength hdisc
      have hshl : (BitVec.ofNat 4 shl).toNat = shl := by
        obtain rfl | rfl := discLength_some hdisc <;> decide
      rw [onStart_valid _ hdisc] at hstep
      rw [recvAll_valid _ _ _ hdisc, drop_recvRemoved_valid _ hdisc]
      obtain ⟨t, hsteps, ht⟩ := receives_subhdr
        (s := { s with rxBytes := rest, shl := BitVec.ofNat 4 shl, phase := .waitSubhdr }) rfl (by rwa [hshl]) 0
      simp only [hshl] at hsteps ht
      exact ⟨t, (recvSteps_some hstep 2).trans hsteps, ht.after rfl⟩

end

end Sys2Proof.Machine
end

section
/-! SUPPORT. One whole response in the stream (spec/30_encoding.md R100 to R102): the end the stream function gives it,
and how it gets there. -/

namespace Sys2Proof.Machine

open Claims

section
variable {disc : Byte} {shl : Nat} {routing body : List Byte}

/-- The last two sub-header bytes of a response count its body. -/
theorem announced_response (hr : routingFits shl routing = true) (hb : bodyFits body = true) (hshl : 2 ≤ shl) :
    (announced shl (routing ++ le16 (BitVec.ofNat 16 body.length) ++ body)).toNat = body.length := by
  have hlen : routing.length + 2 = shl := by
    have := beq_iff_eq.mp hr
    omega
  rw [le16, List.append_assoc, List.cons_append, List.cons_append, announced_append _ _ _ hlen]
  exact lengthField_counts (of_decide_eq_true hb)

/-- The body of a response is what follows its sub-header. -/
theorem drop_subhdr_response (hr : routingFits shl routing = true) (hshl : 2 ≤ shl) (length : Word) :
    (routing ++ le16 length ++ body).drop shl = body := by
  have hlen : (routing ++ le16 length).length = shl := by
    have := beq_iff_eq.mp hr
    rw [List.length_append, this, le16, List.length_cons, List.length_cons, List.length_nil]
    omega
  rw [← hlen, List.drop_left]

/-- A whole response ends as its body says, whatever the ignored bytes and the end of the stream. -/
theorem recvAll_response (hd : discLength disc = some shl) (hr : routingFits shl routing = true)
    (hb : bodyFits body = true) (maxBody : Nat) (t : RxTerm) :
    recvAll maxBody (encodeResponse disc routing body) t = bodyEnd maxBody body := by
  have hshl := two_le_discLength hd
  have hlong : ¬ (routing ++ le16 (BitVec.ofNat 16 body.length) ++ body).length < shl := by
    have := beq_iff_eq.mp hr
    simp only [List.length_append, le16, List.length_cons, List.length_nil]
    omega
  rw [encodeResponse, recvAll_valid _ _ _ hd, recvFromSubhdr, if_neg hlong, announced_response hr hb hshl,
    drop_subhdr_response hr hshl, recvFromBody, if_neg (Nat.lt_irrefl _), List.take_length]

/-- A whole response is removed whole. -/
theorem drop_recvRemoved_response (hd : discLength disc = some shl) (hr : routingFits shl routing = true)
    (hb : bodyFits body = true) :
    (encodeResponse disc routing body).drop (recvRemoved (encodeResponse disc routing body)) = [] := by
  have hshl := two_le_discLength hd
  rw [encodeResponse, drop_recvRemoved_valid _ hd, announced_response hr hb hshl, drop_subhdr_response hr hshl,
    List.drop_length]

/-- A response that arrives is well formed, and appended as it is encoded. -/
theorem respond_next {s t : State}
    (h : (if routingFits shl routing && bodyFits body then arrive (encodeResponse disc routing body) s
      else .refused .illFormedFrame) = .next t) :
    routingFits shl routing = true ∧ bodyFits body = true ∧ t = s.receive (encodeResponse disc routing body) := by
  split at h
  · next hfits =>
    obtain ⟨hr, hb⟩ := Bool.and_eq_true_iff.mp hfits
    exact ⟨hr, hb, arrive_next h⟩
  · cases h

end

/-- Three steps receive the one response in the stream, when `MAX_BODY` and `DOUT` allow its length
(spec/42_response_decoder.md R176, R178). -/
theorem recvSteps_response {disc : Byte} {shl : Nat} {routing payload : List Byte} {s0 s1 : Byte} {s : State}
    (hp : s.phase = .waitStart) (hrx : s.rxBytes = encodeResponse disc routing (s0 :: s1 :: payload))
    (hd : discLength disc = some shl) (hr : routingFits shl routing = true)
    (hb : bodyFits (s0 :: s1 :: payload) = true) (hmax : (s0 :: s1 :: payload).length ≤ s.params.maxBody)
    (hfits : Fits s payload.length) :
    (recvSteps 3 s).rxBytes = [] ∧ (recvSteps 3 s).busy = false ∧
    (un16 s0 s1 = 0 → (recvSteps 3 s).status = 0 ∧ (recvSteps 3 s).dout = bytes payload) ∧
    (un16 s0 s1 ≠ 0 →
      (recvSteps 3 s).err = 5 ∧ (recvSteps 3 s).code = un16 s0 s1 ∧ (recvSteps 3 s).dout = []) := by
  obtain ⟨t, hsteps, ht⟩ := receives_start hp
  obtain ⟨hparams, -⟩ := ht.frame
  obtain ⟨hcap, hsmall⟩ := hfits
  rw [hrx, recvAll_response hd hr hb] at hsteps ht
  rw [drop_recvRemoved_response hd hr hb] at ht
  have hempty : (recvSteps 3 s).rxBytes = [] := by
    rw [hsteps, endAs_rxBytes, ht.leaves (bodyEnd_ne_pending _ _)]
  rw [bodyEnd_status hmax] at hsteps
  refine ⟨hempty, ?_⟩
  by_cases hst : un16 s0 s1 = 0
  · rw [hsteps, if_neg (not_not.mpr hst), endAs_ok ⟨(overCapacity_params hparams _).trans hcap, hsmall⟩]
    exact ⟨rfl, fun _ => ⟨rfl, rfl⟩, fun hne => absurd hst hne⟩
  · obtain ⟨herr, -, hcode⟩ := complete_status_fields t .remoteStatusError .none (un16 s0 s1)
    rw [hsteps, if_pos hst]
    exact ⟨rfl, fun he => absurd he hst, fun _ => ⟨herr, hcode, rfl⟩⟩

/-- Either form of response. -/
theorem exec_response_next {i : Instr} {s t : State} {routing body : List Byte}
    (hi : i = .respD0 routing body ∨ i = .respD4 routing body) (h : exec i s = .next t) :
    ∃ disc shl, discLength disc = some shl ∧ routingFits shl routing = true ∧ bodyFits body = true ∧
      t = s.receive (encodeResponse disc routing body) := by
  obtain rfl | rfl := hi
  · exact ⟨Config.discNoSerial, 8, rfl, respond_next h⟩
  · exact ⟨Config.discSerial, 12, rfl, respond_next h⟩

end Sys2Proof.Machine
end

section
/-! The statements of the family of the response decoder. -/

namespace Sys2Proof.Proofs

open Machine Claims

/-- Settles O13: the three steps end as the stream function says, from a state that has kept all else. -/
theorem receptionRefinesTheStreamFunction : Obligations.ReceptionRefinesTheStreamFunction := by
  intro s hp hbusy
  obtain ⟨t, hsteps, ht⟩ := receives_start hp
  obtain ⟨hparams, -, hbusy', hstatus, hdout⟩ := ht.frame
  have hwaits := ht.waits
  rw [hsteps]
  generalize recvAll s.params.maxBody s.rxBytes s.rxTerm = e at hwaits
  cases e with
  | error kind sub code => exact ⟨rfl, rfl, rfl, rfl, rfl⟩
  | ok payload =>
    rintro ⟨hcap, hsmall⟩
    rw [endAs_ok ⟨(overCapacity_params hparams _).trans hcap, hsmall⟩]
    exact ⟨rfl, rfl, rfl, rfl, rfl⟩
  | pending =>
    obtain ⟨hphase, hnone⟩ := hwaits rfl
    exact ⟨hbusy'.trans hbusy, hphase, hnone, hstatus, hdout⟩

/-- Settles O14: the completion itself leaves the stream alone. -/
theorem receptionLeavesTheNextResponse : Obligations.ReceptionLeavesTheNextResponse := by
  intro s hp hend
  obtain ⟨t, hsteps, ht⟩ := receives_start hp
  obtain ⟨-, hterm, -⟩ := ht.frame
  rw [hsteps, endAs_rxBytes, endAs_rxTerm]
  exact ⟨ht.leaves hend, hterm⟩

/-- Settles O15: the frame of each way a continuation can go, and the pull it starts with. -/
theorem continuationsWriteTheirRegistersOnly : Obligations.ContinuationsWriteTheirRegistersOnly := by
  intro s t h
  refine ⟨?_, recvStep_suffix h⟩
  cases recvStep_some h with
  | started => rfl
  | measured => rfl
  | delivered => rfl
  | failed => rfl

/-- Settles O37: the three steps on a stream that holds one whole response and no more. -/
theorem arrivedResponseIsReceived : Obligations.ArrivedResponseIsReceived := by
  rintro f s t u i routing payload s0 s1 ⟨hb, hd⟩ hrx hissue hi harrive hmax hfits
  obtain rfl : { s.loadOperands 0x30 f with phase := .waitStart } = t := by
    rw [exec, execRdRecv, issue_ready hb hd] at hissue
    exact Host.Outcome.next.inj hissue
  obtain ⟨disc, shl, hdisc, hr, hbody, rfl⟩ := exec_response_next hi harrive
  exact recvSteps_response rfl (congrArg (· ++ _) hrx) hdisc hr hbody (by exact hmax) hfits

/-- Settles O8, by the number of bytes the stream holds. -/
theorem pullTakesExactlyN : Obligations.PullTakesExactlyN := by
  intro n s
  refine ⟨rxReadExact_bytes, rxReadExact_short, ?_⟩
  exact rxReadExact_bytes (Nat.zero_le _)

/-- Settles O9: the issue, and the phase the effect sets. -/
theorem recvIssueStartsTheReception : Obligations.RecvIssueStartsTheReception := by
  rintro f s ⟨hb, hd⟩
  rw [exec, execRdRecv, issue_ready hb hd]
  rfl

/-- Settles O10: the pull of one byte; the three cases of that byte are those of `onStart`. -/
theorem startStepReadsTheDiscriminator : Obligations.StartStepReadsTheDiscriminator := by
  intro s hp
  rw [recvStep_waitStart hp]
  refine ⟨fun b rest hrx => ?_, fun hrx => ?_⟩
  · rw [pullThen_append (n := 1) (got := [b]) hrx rfl, ← errStatus_invalidStart]
    rfl
  · have hshort : s.rxBytes.length < 1 := by rw [hrx]; decide
    simpa only [State.complete, errStatus_eof, errStatus_ioError, hrx] using pullThen_short (k := onStart) hshort

/-- Settles O11: the pull of the whole sub-header, of which the last two bytes are kept. -/
theorem subheaderStepReadsTheLength : Obligations.SubheaderStepReadsTheLength := by
  intro s hp hshl
  rw [recvStep_waitSubhdr hp]
  refine ⟨fun routing l0 l1 rest hrx hlen => ?_, fun hshort => ?_⟩
  · have hsplit : s.rxBytes = (routing ++ [l0, l1]) ++ rest := by rw [hrx, List.append_assoc]; rfl
    have hall : (routing ++ [l0, l1]).length = s.shl.toNat := by rw [List.length_append, ← hlen]; rfl
    rw [pullThen_append hsplit hall, onSubhdr_eq_announced, announced_append _ _ _ hlen]
  · simpa only [State.complete, errStatus_eof, errStatus_ioError] using pullThen_short (k := onSubhdr) hshort

/-- Settles O12: the pull of the whole body, and its checks in their order. -/
theorem bodyStepDeliversTheBody : Obligations.BodyStepDeliversTheBody := by
  intro s hp
  rw [recvStep_waitBody hp]
  refine ⟨fun body rest hrx hlen => ?_, fun hshort => ?_⟩
  · rw [pullThen_append hrx hlen, onBody_eq_endAs (by exact hlen)]
    refine ⟨fun h => ?_, fun hmax h => ?_, fun hmax s0 s1 payload hbody => ?_⟩
    · rw [bodyEnd_beyond (by exact h), ← errStatus_bodyLimit]
      rfl
    · rw [bodyEnd_short (by exact hmax) h, ← errStatus_shortBody]
      rfl
    · subst hbody
      rw [bodyEnd_status (by exact hmax)]
      refine ⟨fun hst => ?_, fun hst hfits => ?_, fun hst hover => ?_⟩
      · rw [if_pos hst]
        obtain ⟨herr, hsub, hcode⟩ :=
          complete_status_fields { s with rxBytes := rest } .remoteStatusError .none (un16 s0 s1)
        exact ⟨_, rfl, herr, hsub, hcode, rfl⟩
      · rw [if_neg (not_not.mpr hst), endAs_ok (by exact hfits)]
      · rw [if_neg (not_not.mpr hst), endAs_ok_beyond (by exact hover), ← errStatus_itemLimit]
        rfl
  · simpa only [State.complete, errStatus_eof, errStatus_ioError] using pullThen_short (k := onBody) hshort

/-- Settles O16: a pull that is not enabled is no step of the block. -/
theorem openSilentStreamKeepsWaiting : Obligations.OpenSilentStreamKeepsWaiting := by
  intro s later hsched hopen hfew
  have hnone : recvStep { s with sched := later } = none := by
    obtain ⟨hp, hrx⟩ | ⟨hp, hlen⟩ | ⟨hp, hlen⟩ := hfew
    · rw [recvStep_waitStart (by exact hp)]
      exact (pullThen_short (by simp [hrx])).2.2 hopen
    · rw [recvStep_waitSubhdr (by exact hp)]
      exact (pullThen_short (by exact hlen)).2.2 hopen
    · rw [recvStep_waitBody (by exact hp)]
      exact (pullThen_short (by exact hlen)).2.2 hopen
  rw [step_scheduled hsched, agentStep, blockStep, hnone]

end Sys2Proof.Proofs
end

section
/-! SUPPORT. The bit codec (spec/43_bit_codec.md): its walks over pairs and bytes, and how an issued `BC.ENC` or
`BC.DEC` ends. -/

namespace Sys2Proof.Machine

open Claims

/-! ### One byte -/

/-- A packed pair has its booleans at bits 4 and 0 and nothing else (spec/43_bit_codec.md R200). -/
theorem packPair_getLsbD (a b : Bool) (j : Nat) :
    (packPair a b).getLsbD j = if j = 4 then a else if j = 0 then b else false := by
  by_cases hj : j < 8
  · cases a <;> cases b <;> interval_cases j <;> rfl
  · rw [BitVec.getLsbD_of_ge _ _ (by omega), if_neg (by omega), if_neg (by omega)]

/-- Masking a byte with one bit reads that bit. -/
theorem unpackByte_eq (b : Byte) : unpackByte b = [b.getLsbD 4, b.getLsbD 0] := by
  have h4 : (b &&& 0x10 != 0) = b.getLsbD 4 := by revert b; decide
  have h0 : (b &&& 0x01 != 0) = b.getLsbD 0 := by revert b; decide
  rw [unpackByte, h4, h0]

theorem unpackByte_packPair (a b : Bool) : unpackByte (packPair a b) = [a, b] := by
  rw [unpackByte_eq, packPair_getLsbD, packPair_getLsbD]
  rfl

/-! ### The encoder's walk -/

theorem bitEncode_nil : bitEncode [] = [] := rfl

theorem bitEncode_singleton (a : Bool) : bitEncode [a] = [packPair a false] := rfl

/-- The completing `false` stands behind the last pair, so it leaves the first one alone. -/
theorem bitEncode_cons_cons (a b : Bool) (v : List Bool) : bitEncode (a :: b :: v) = packPair a b :: bitEncode v := by
  have hparity : (a :: b :: v).length % 2 = v.length % 2 := Nat.add_mod_right v.length 2
  unfold bitEncode
  rw [hparity]
  split <;> rfl

theorem bitEncode_length (v : List Bool) : (bitEncode v).length = (v.length + 1) / 2 := by
  induction v using List.twoStepInduction with
  | nil => rfl
  | singleton a => rw [bitEncode_singleton, List.length_singleton, List.length_singleton]
  | cons_cons a b v ih =>
    rw [bitEncode_cons_cons, List.length_cons, ih, List.length_cons, List.length_cons]
    omega

/-- Byte `k` holds booleans `2k` and `2k + 1` (spec/43_bit_codec.md R200). -/
theorem bitEncode_getLsbD (v : List Bool) (k j : Nat) :
    ((bitEncode v).getD k 0).getLsbD j =
      if j = 4 then v.getD (2 * k) false else if j = 0 then v.getD (2 * k + 1) false else false := by
  induction v using List.twoStepInduction generalizing k with
  | nil => simp [bitEncode_nil]
  | singleton a =>
    cases k with
    | zero => exact packPair_getLsbD a false j
    | succ k => simp [bitEncode_singleton, Nat.mul_succ]
  | cons_cons a b v ih =>
    rw [bitEncode_cons_cons]
    cases k with
    | zero => exact packPair_getLsbD a b j
    | succ k => exact ih k

/-! ### The decoder's walk -/

theorem unpackBytes_cons (b : Byte) (bs : List Byte) :
    unpackBytes (b :: bs) = b.getLsbD 4 :: b.getLsbD 0 :: unpackBytes bs := by
  rw [unpackBytes, List.flatMap_cons, unpackByte_eq]
  rfl

theorem unpackBytes_length (bs : List Byte) : (unpackBytes bs).length = 2 * bs.length := by
  induction bs with
  | nil => rfl
  | cons b bs ih =>
    rw [unpackBytes_cons, List.length_cons, List.length_cons, ih, List.length_cons]
    omega

theorem take_unpackBytes_length {bs : List Byte} {n : Nat} (h : n ≤ 2 * bs.length) :
    ((unpackBytes bs).take n).length = n := by
  rw [List.length_take_of_le (by rwa [unpackBytes_length])]

/-- Boolean `i` is in byte `i / 2` (spec/43_bit_codec.md R202). -/
theorem unpackBytes_getD (bs : List Byte) (i : Nat) :
    (unpackBytes bs).getD i false = (bs.getD (i / 2) 0).getLsbD (if i % 2 = 0 then 4 else 0) := by
  induction bs generalizing i with
  | nil => simp [unpackBytes]
  | cons b bs ih =>
    rw [unpackBytes_cons]
    match i with
    | 0 => rfl
    | 1 => rfl
    | i + 2 =>
      rw [Nat.add_div_right i (by decide), Nat.add_mod_right]
      exact ih i

/-- All that the packed bytes hold: the booleans, and after an odd number of them the completing `false`. -/
theorem unpackBytes_bitEncode (v : List Bool) :
    unpackBytes (bitEncode v) = if v.length % 2 = 0 then v else v ++ [false] := by
  induction v using List.twoStepInduction with
  | nil => rfl
  | singleton a => exact unpackByte_packPair a false
  | cons_cons a b v ih =>
    have hparity : (a :: b :: v).length % 2 = v.length % 2 := Nat.add_mod_right v.length 2
    have hcons : unpackBytes (bitEncode (a :: b :: v)) = [a, b] ++ unpackBytes (bitEncode v) := by
      rw [bitEncode_cons_cons, unpackBytes, List.flatMap_cons, unpackByte_packPair]
      rfl
    rw [hcons, ih, hparity]
    split <;> rfl

theorem take_length_unpackBytes_bitEncode (v : List Bool) : (unpackBytes (bitEncode v)).take v.length = v := by
  rw [unpackBytes_bitEncode]
  split
  · exact List.take_length
  · exact List.take_left

/-! ### How an issued operation ends -/

/-- ShapeError is kind 11, and the short bit payload its sub-cause 1 (spec/60_exceptions.md R281, R282). -/
theorem errStatus_shortBitPayload : errStatus .shapeError .shortBitPayload 0 = 0x00001b := by decide

section
variable {op : Byte} {f : CwFields} {s : State}

/-- On a ready port with items of its type, an operation goes on with them from the loaded operands. -/
theorem issue_withDin_items {α : Type} {as? : Item → Option α} {xs : List α} {k : State → List α → Out} (h : Ready s)
    (hdin : itemsAs as? s.din = some xs) :
    issue op f s (fun u => withDin as? u (k u)) = k (s.loadOperands op f) xs := by
  obtain ⟨hb, hd⟩ := h
  rw [issue_ready hb hd, withDin_some (by rwa [State.loadOperands_din])]

/-- A result that `DOUT` holds is delivered as the claims write it out. -/
theorem loadOperands_finish {out : List Item} (h : Fits s out.length) :
    (s.loadOperands op f).finish out = succeeded op f out s := by
  obtain ⟨hcap, hsmall⟩ := h
  rw [finish_fits (by rwa [loadOperands_overCapacity]), loadOperands_doneWith hsmall]

theorem exec_bcEnc_succeeded {v : List Bool} (h : Ready s) (hdin : s.din = v.map .bool)
    (hfits : Fits s ((v.length + 1) / 2)) :
    exec (.bcEnc f) s = .next (succeeded 0x40 f (bytes (bitEncode v)) s) := by
  have hlen : (bytes (bitEncode v)).length = (v.length + 1) / 2 := by rw [List.length_map, bitEncode_length]
  rw [exec, execBcEnc, issue_withDin_items h (by rw [hdin, itemsAs_bools]), loadOperands_finish (by rwa [hlen])]

/-- `BC.DEC` after the checks of the port: its check of the payload against `COUNT`, then its result. -/
theorem exec_bcDec_ready {bs : List Byte} (h : Ready s) (hdin : s.din = bytes bs) :
    exec (.bcDec f) s =
      if 2 * bs.length < f.count.toNat then .next (failed 0x41 f 0x00001b s)
      else .next ((s.loadOperands 0x41 f).finish (((unpackBytes bs).take f.count.toNat).map .bool)) := by
  rw [exec, execBcDec, issue_withDin_items h (by rw [hdin, itemsAs_bytes]), loadOperands_complete,
    errStatus_shortBitPayload, State.loadOperands_count]

theorem exec_bcDec_short {bs : List Byte} (h : Ready s) (hdin : s.din = bytes bs)
    (hshort : 2 * bs.length < f.count.toNat) : exec (.bcDec f) s = .next (failed 0x41 f 0x00001b s) := by
  rw [exec_bcDec_ready h hdin, if_pos hshort]

theorem exec_bcDec_succeeded {bs : List Byte} (h : Ready s) (hdin : s.din = bytes bs)
    (henough : f.count.toNat ≤ 2 * bs.length) (hfits : Fits s f.count.toNat) :
    exec (.bcDec f) s = .next (succeeded 0x41 f (((unpackBytes bs).take f.count.toNat).map .bool) s) := by
  have hlen : (((unpackBytes bs).take f.count.toNat).map Item.bool).length = f.count.toNat := by
    rw [List.length_map, take_unpackBytes_length henough]
  rw [exec_bcDec_ready h hdin, if_neg (by omega), loadOperands_finish (by rwa [hlen])]

/-- Any count that the packed bytes cover and that is at most one beyond the booleans, asked back from the state that
`BC.ENC` left with its bytes presented again. -/
theorem exec_bcDec_after_bcEnc {g : CwFields} {t : State} {v : List Bool} (h : Ready s) (hdin : s.din = v.map .bool)
    (hfits : Fits s (v.length + 1)) (henc : exec (.bcEnc f) s = .next t)
    (hcount : g.count.toNat ≤ 2 * ((v.length + 1) / 2)) :
    exec (.bcDec g) { t with din := t.dout } =
      .next (succeeded 0x41 g (((unpackBytes (bitEncode v)).take g.count.toNat).map .bool)
        { t with din := t.dout }) := by
  obtain ⟨hcap, hsmall⟩ := hfits
  have holds (n : Nat) (hn : n ≤ v.length + 1) : Fits s n := ⟨overCapacity_mono hn hcap, by omega⟩
  have hlen : (bytes (bitEncode v)).length = (v.length + 1) / 2 := by rw [List.length_map, bitEncode_length]
  obtain rfl : succeeded 0x40 f (bytes (bitEncode v)) s = t := by
    rw [exec_bcEnc_succeeded h hdin (holds _ (by omega))] at henc
    exact Host.Outcome.next.inj henc
  obtain ⟨hdin', -⟩ := holds (bytes (bitEncode v)).length (by omega)
  exact exec_bcDec_succeeded ⟨rfl, hdin'⟩ rfl (by rwa [bitEncode_length]) (holds _ (by omega))

end

end Sys2Proof.Machine
end

section
/-! The statements of the family of the bit codec. -/

namespace Sys2Proof.Proofs

open Machine Claims

/-- Settles O17: the bytes are those of `bitEncode`, bit by bit. -/
theorem bcEncPacksTwoPerByte : Obligations.BcEncPacksTwoPerByte := by
  intro f s v h hdin hfits
  exact ⟨bitEncode v, exec_bcEnc_succeeded h hdin hfits, bitEncode_length v, bitEncode_getLsbD v⟩

/-- Settles O18: each side of the check of the payload; the booleans are the first `COUNT` that the bytes hold. -/
theorem bcDecUnpacksTwoPerByte : Obligations.BcDecUnpacksTwoPerByte := by
  intro f s bs h hdin
  refine ⟨exec_bcDec_short h hdin, fun henough hfits => ?_⟩
  refine ⟨_, exec_bcDec_succeeded h hdin henough hfits, take_unpackBytes_length henough, fun i hi => ?_⟩
  rw [← unpackBytes_getD, List.getD_eq_getElem?_getD, List.getElem?_take_of_lt hi, List.getD_eq_getElem?_getD]

/-- Settles O19: the packed bytes hold the booleans and their completion, of which the first count takes the booleans
and the second count all. -/
theorem bitsRoundTrip : Obligations.BitsRoundTrip := by
  intro f g s t v h hdin hfits henc
  refine ⟨fun hcount => ?_, fun hcount => ?_⟩
  · rw [exec_bcDec_after_bcEnc h hdin hfits henc (by omega), hcount, take_length_unpackBytes_bitEncode]
  · have hall : (unpackBytes (bitEncode v)).length = g.count.toNat := by
      rw [unpackBytes_length, bitEncode_length, hcount]
    rw [exec_bcDec_after_bcEnc h hdin hfits henc (by omega), ← hall, List.take_length, unpackBytes_bitEncode]

end Sys2Proof.Proofs
end

section
/-! SUPPORT. The word codec (spec/44_word_codec.md): its walks over words and byte pairs, the padding of a string, and
how an issued operation of the unit ends. -/

namespace Sys2Proof.Machine

open Claims

/-! ### Words and byte pairs -/

/-- Word `k` is at bytes `2k` and `2k + 1`, low byte first (spec/44_word_codec.md R210). -/
theorem wordEncode_getD (ws : List Word) (k : Nat) :
    (wordEncode ws).getD (2 * k) 0 = lo (ws.getD k 0) ∧ (wordEncode ws).getD (2 * k + 1) 0 = hi (ws.getD k 0) := by
  induction ws generalizing k with
  | nil => simp [wordEncode_nil, lo, hi]
  | cons w ws ih =>
    rw [wordEncode_cons]
    cases k with
    | zero => exact ⟨rfl, rfl⟩
    | succ k => exact ih k

theorem wordDecode_singleton (b : Byte) : wordDecode [b] = [] := rfl

theorem wordDecode_cons_cons (l h : Byte) (bs : List Byte) :
    wordDecode (l :: h :: bs) = un16 l h :: wordDecode bs := rfl

theorem wordDecode_length (bs : List Byte) : (wordDecode bs).length = bs.length / 2 := by
  induction bs using List.twoStepInduction with
  | nil => rfl
  | singleton b => rw [wordDecode_singleton, List.length_nil, List.length_singleton]
  | cons_cons l h bs ih =>
    rw [wordDecode_cons_cons, List.length_cons, ih, List.length_cons, List.length_cons]
    omega

/-- Word `k` is `hi << 8 | lo` of bytes `2k` and `2k + 1` (spec/44_word_codec.md R212). -/
theorem wordDecode_getD_toNat (bs : List Byte) (k : Nat) (hk : k < bs.length / 2) :
    ((wordDecode bs).getD k 0).toNat = (bs.getD (2 * k + 1) 0).toNat * 256 + (bs.getD (2 * k) 0).toNat := by
  induction bs using List.twoStepInduction generalizing k with
  | nil => exact absurd hk (Nat.not_lt_zero k)
  | singleton b =>
    rw [List.length_singleton] at hk
    omega
  | cons_cons l h bs ih =>
    rw [wordDecode_cons_cons]
    cases k with
    | zero => exact un16_toNat l h
    | succ k =>
      rw [List.length_cons, List.length_cons] at hk
      exact ih k (by omega)

theorem wordDecode_wordEncode (ws : List Word) : wordDecode (wordEncode ws) = ws := by
  induction ws with
  | nil => rfl
  | cons w ws ih => rw [wordEncode_cons, wordDecode_cons_cons, un16_le16, ih]

/-- Only an odd last byte is lost in the words, and an even number of bytes has none. -/
theorem wordEncode_wordDecode {bs : List Byte} (heven : bs.length % 2 = 0) : wordEncode (wordDecode bs) = bs := by
  induction bs using List.twoStepInduction with
  | nil => rfl
  | singleton b => cases heven
  | cons_cons l h bs ih =>
    have hrest : bs.length % 2 = 0 := (Nat.add_mod_right bs.length 2).symm.trans heven
    rw [wordDecode_cons_cons, wordEncode, List.flatMap_cons, le16_un16, ← wordEncode, ih hrest]
    rfl

/-! ### Strings -/

theorem stringEncode_length (cs : List Byte) : (stringEncode cs).length = cs.length + strPad cs.length := by
  rw [stringEncode, List.length_append, List.length_replicate]

theorem strPad_le_two (n : Nat) : strPad n ≤ 2 := Nat.sub_le 2 _

/-- The padding makes the byte length even (spec/44_word_codec.md R214). -/
theorem stringEncode_length_even (cs : List Byte) : (stringEncode cs).length % 2 = 0 := by
  rw [stringEncode_length, strPad]
  omega

/-- The words of an encoded string have room for exactly its characters and its padding. -/
theorem packChars_strWords (cs : List Byte) : packChars cs (strWords cs.length) = wordDecode (stringEncode cs) := by
  have hpad : 2 * strWords cs.length - cs.length = strPad cs.length := by
    rw [strWords_eq, strPad]
    omega
  rw [packChars, hpad, stringEncode]

/-- An encoded string is the word encoding of its packed characters (spec/44_word_codec.md R214). -/
theorem wordEncode_packChars (cs : List Byte) : wordEncode (packChars cs (strWords cs.length)) = stringEncode cs := by
  rw [packChars_strWords, wordEncode_wordDecode (stringEncode_length_even cs)]

/-- The padding stands behind the characters, so no part of them reaches it. -/
theorem take_stringEncode {cs : List Byte} {n : Nat} (h : n ≤ cs.length) : (stringEncode cs).take n = cs.take n :=
  List.take_append_of_le_length h

/-! ### How an issued operation ends -/

/-- MalformedFrame is kind 4, and the odd length its sub-cause 3 (spec/60_exceptions.md R281, R282). -/
theorem errStatus_oddLength : errStatus .malformedFrame .oddLength 0 = 0x000034 := by decide

/-- ShapeError is kind 11, and the short string its sub-cause 2 (spec/60_exceptions.md R281, R282). -/
theorem errStatus_stringTooShort : errStatus .shapeError .stringTooShort 0 = 0x00002b := by decide

section
variable {op : Byte} {f : CwFields} {s : State}

theorem fits_mono {m n : Nat} (hmn : m ≤ n) (h : Fits s n) : Fits s m := by
  obtain ⟨hcap, hsmall⟩ := h
  exact ⟨overCapacity_mono hmn hcap, by omega⟩

/-- A result that `DOUT` holds can be presented as the next `DIN`. -/
theorem ready_present_dout {out : List Item} (h : Fits s out.length) :
    Ready { succeeded op f out s with din := (succeeded op f out s).dout } := ⟨rfl, h.1⟩

theorem exec_wcEnc_succeeded {ws : List Word} (h : Ready s) (hdin : s.din = ws.map .word)
    (hfits : Fits s (2 * ws.length)) :
    exec (.wcEnc f) s = .next (succeeded 0x50 f (bytes (wordEncode ws)) s) := by
  have hlen : (bytes (wordEncode ws)).length = 2 * ws.length := by rw [List.length_map, wordEncode_length]
  rw [exec, execWcEnc, issue_withDin_items h (by rw [hdin, itemsAs_words]), loadOperands_finish (by rwa [hlen])]

/-- `WC.DEC` after the checks of the port: its check of the parity, then its result. -/
theorem exec_wcDec_ready {bs : List Byte} (h : Ready s) (hdin : s.din = bytes bs) :
    exec (.wcDec f) s =
      if bs.length % 2 = 1 then .next (failed 0x51 f 0x000034 s)
      else .next ((s.loadOperands 0x51 f).finish ((wordDecode bs).map .word)) := by
  rw [exec, execWcDec, issue_withDin_items h (by rw [hdin, itemsAs_bytes]), loadOperands_complete, errStatus_oddLength]

theorem exec_wcDec_odd {bs : List Byte} (h : Ready s) (hdin : s.din = bytes bs) (hodd : bs.length % 2 = 1) :
    exec (.wcDec f) s = .next (failed 0x51 f 0x000034 s) := by
  rw [exec_wcDec_ready h hdin, if_pos hodd]

theorem exec_wcDec_succeeded {bs : List Byte} (h : Ready s) (hdin : s.din = bytes bs) (heven : bs.length % 2 = 0)
    (hfits : Fits s (bs.length / 2)) :
    exec (.wcDec f) s = .next (succeeded 0x51 f ((wordDecode bs).map .word) s) := by
  have hlen : ((wordDecode bs).map Item.word).length = bs.length / 2 := by rw [List.length_map, wordDecode_length]
  rw [exec_wcDec_ready h hdin, if_neg (by omega), loadOperands_finish (by rwa [hlen])]

theorem exec_wcSenc_succeeded {cs : List Byte} (h : Ready s) (hdin : s.din = cs.map .char)
    (hfits : Fits s (cs.length + strPad cs.length)) :
    exec (.wcSenc f) s = .next (succeeded 0x52 f (bytes (stringEncode cs)) s) := by
  have hlen : (bytes (stringEncode cs)).length = cs.length + strPad cs.length := by
    rw [List.length_map, stringEncode_length]
  rw [exec, execWcSenc, issue_withDin_items h (by rw [hdin, itemsAs_chars]), loadOperands_finish (by rwa [hlen])]

/-- `WC.SDEC` after the checks of the port: its check of the parity, then that of the payload against `LEN`, then its
result. -/
theorem exec_wcSdec_ready {bs : List Byte} (h : Ready s) (hdin : s.din = bytes bs) :
    exec (.wcSdec f) s =
      if bs.length % 2 = 1 then .next (failed 0x53 f 0x000034 s)
      else if bs.length < f.len.toNat then .next (failed 0x53 f 0x00002b s)
      else .next ((s.loadOperands 0x53 f).finish (((unpackChars (wordDecode bs)).take f.len.toNat).map .char)) := by
  rw [exec, execWcSdec, issue_withDin_items h (by rw [hdin, itemsAs_bytes]), loadOperands_complete, errStatus_oddLength,
    loadOperands_complete, errStatus_stringTooShort, State.loadOperands_len]

theorem exec_wcSdec_odd {bs : List Byte} (h : Ready s) (hdin : s.din = bytes bs) (hodd : bs.length % 2 = 1) :
    exec (.wcSdec f) s = .next (failed 0x53 f 0x000034 s) := by
  rw [exec_wcSdec_ready h hdin, if_pos hodd]

theorem exec_wcSdec_short {bs : List Byte} (h : Ready s) (hdin : s.din = bytes bs) (heven : bs.length % 2 = 0)
    (hshort : bs.length < f.len.toNat) : exec (.wcSdec f) s = .next (failed 0x53 f 0x00002b s) := by
  rw [exec_wcSdec_ready h hdin, if_neg (by omega), if_pos hshort]

/-- The characters unpacked from the words of an even payload are its bytes, so `LEN` takes the first of those. -/
theorem exec_wcSdec_succeeded {bs : List Byte} (h : Ready s) (hdin : s.din = bytes bs) (heven : bs.length % 2 = 0)
    (henough : f.len.toNat ≤ bs.length) (hfits : Fits s f.len.toNat) :
    exec (.wcSdec f) s = .next (succeeded 0x53 f ((bs.take f.len.toNat).map .char) s) := by
  have hlen : ((bs.take f.len.toNat).map Item.char).length = f.len.toNat := by
    rw [List.length_map, List.length_take_of_le henough]
  rw [exec_wcSdec_ready h hdin, if_neg (by omega), if_neg (by omega), unpackChars_eq_wordEncode,
    wordEncode_wordDecode heven, loadOperands_finish (by rwa [hlen])]

end

/-! ### One operation on what another delivered -/

section
variable {f g : CwFields} {s t : State}

theorem exec_wcDec_after_wcEnc {ws : List Word} (h : Ready s) (hdin : s.din = ws.map .word)
    (hfits : Fits s (2 * ws.length)) (henc : exec (.wcEnc f) s = .next t) :
    exec (.wcDec g) { t with din := t.dout } = .next (succeeded 0x51 g (ws.map .word) { t with din := t.dout }) := by
  have hbytes : (wordEncode ws).length = 2 * ws.length := wordEncode_length ws
  obtain rfl : succeeded 0x50 f (bytes (wordEncode ws)) s = t := by
    rw [exec_wcEnc_succeeded h hdin hfits] at henc
    exact Host.Outcome.next.inj henc
  have hout : Fits s (bytes (wordEncode ws)).length := by rwa [List.length_map, hbytes]
  rw [exec_wcDec_succeeded (ready_present_dout hout) rfl (by omega) (fits_mono (by omega) hfits), wordDecode_wordEncode]

theorem exec_wcEnc_after_wcDec {bs : List Byte} (h : Ready s) (hdin : s.din = bytes bs) (hfits : Fits s bs.length)
    (heven : bs.length % 2 = 0) (hdec : exec (.wcDec f) s = .next t) :
    exec (.wcEnc g) { t with din := t.dout } = .next (succeeded 0x50 g (bytes bs) { t with din := t.dout }) := by
  have hwords : (wordDecode bs).length = bs.length / 2 := wordDecode_length bs
  obtain rfl : succeeded 0x51 f ((wordDecode bs).map .word) s = t := by
    rw [exec_wcDec_succeeded h hdin heven (fits_mono (by omega) hfits)] at hdec
    exact Host.Outcome.next.inj hdec
  have hout : Fits s ((wordDecode bs).map Item.word).length := fits_mono (by rw [List.length_map]; omega) hfits
  rw [exec_wcEnc_succeeded (ready_present_dout hout) rfl (fits_mono (by omega) hfits), wordEncode_wordDecode heven]

theorem exec_wcSdec_after_wcSenc {cs : List Byte} (h : Ready s) (hdin : s.din = cs.map .char)
    (hfits : Fits s (cs.length + 2)) (hlen : g.len.toNat ≤ cs.length) (henc : exec (.wcSenc f) s = .next t) :
    exec (.wcSdec g) { t with din := t.dout } =
      .next (succeeded 0x53 g ((cs.take g.len.toNat).map .char) { t with din := t.dout }) := by
  have hbytes : (stringEncode cs).length = cs.length + strPad cs.length := stringEncode_length cs
  have hpad : strPad cs.length ≤ 2 := strPad_le_two _
  obtain rfl : succeeded 0x52 f (bytes (stringEncode cs)) s = t := by
    rw [exec_wcSenc_succeeded h hdin (fits_mono (by omega) hfits)] at henc
    exact Host.Outcome.next.inj henc
  have hout : Fits s (bytes (stringEncode cs)).length := fits_mono (by rw [List.length_map]; omega) hfits
  rw [exec_wcSdec_succeeded (ready_present_dout hout) rfl (stringEncode_length_even cs) (by omega)
    (fits_mono (by omega) hfits), take_stringEncode hlen]

end

end Sys2Proof.Machine
end

section
/-! The statements of the family of the word codec. -/

namespace Sys2Proof.Proofs

open Machine Claims

/-- Settles O20: the bytes are those of `wordEncode`, word by word. -/
theorem wcEncEmitsLowByteFirst : Obligations.WcEncEmitsLowByteFirst := by
  intro f s ws h hdin hfits
  exact ⟨wordEncode ws, exec_wcEnc_succeeded h hdin hfits, wordEncode_length ws, fun k _ => wordEncode_getD ws k⟩

/-- Settles O21: each side of the check of the parity; the words are those of `wordDecode`, pair by pair. -/
theorem wcDecPairsBytes : Obligations.WcDecPairsBytes := by
  intro f s bs h hdin
  refine ⟨exec_wcDec_odd h hdin, fun heven hfits => ?_⟩
  exact ⟨wordDecode bs, exec_wcDec_succeeded h hdin heven hfits, wordDecode_length bs, wordDecode_getD_toNat bs⟩

/-- Settles O22: the two walks undo each other, the decoder first on an even number of bytes. -/
theorem wordsRoundTrip : Obligations.WordsRoundTrip :=
  ⟨fun _ _ _ _ _ => exec_wcDec_after_wcEnc, fun _ _ _ _ _ => exec_wcEnc_after_wcDec⟩

/-- Settles O23: the padded string fills whole words, which `packChars` builds. -/
theorem wcSencPadsWithNul : Obligations.WcSencPadsWithNul := by
  intro f s cs h hdin hfits
  exact ⟨exec_wcSenc_succeeded h hdin hfits, (wordEncode_packChars cs).symm⟩

/-- Settles O24: the two checks in their order, then the characters. -/
theorem wcSdecTakesTheFirstCharacters : Obligations.WcSdecTakesTheFirstCharacters := by
  intro f s bs h hdin
  exact ⟨exec_wcSdec_odd h hdin, exec_wcSdec_short h hdin, exec_wcSdec_succeeded h hdin⟩

/-- Settles O25: a logical length within the string takes characters only, never padding. -/
theorem stringsRoundTrip : Obligations.StringsRoundTrip :=
  fun _ _ _ _ _ => exec_wcSdec_after_wcSenc

end Sys2Proof.Proofs
end

section
/-! SUPPORT. The fields of a record (spec/45_record_marshaler.md R237, R241): the words of a value and the value of its
words, kind by kind, and that each undoes the other. -/

namespace Sys2Proof.Machine

open Claims

/-! ### Signed numbers and their words -/

theorem sext16_range (w : Word) : -32768 ≤ sext16 w ∧ sext16 w < 32768 := by
  have hw := w.isLt
  unfold sext16
  split <;> omega

theorem sext32_range (d : DWord) : -2147483648 ≤ sext32 d ∧ sext32 d < 2147483648 := by
  have hd := d.isLt
  unfold sext32
  split <;> omega

/-- Sign extension keeps the number modulo `2 ^ 32` (spec/00_scope.md R13). -/
theorem sext32_emod (d : DWord) : sext32 d % 4294967296 = d.toNat := by
  have hd := d.isLt
  unfold sext32
  split <;> omega

theorem trunc32_toNat (v : Int) : ((trunc32 v).toNat : Int) = v % 4294967296 := by
  rw [trunc32, BitVec.toNat_ofInt]
  exact Int.toNat_of_nonneg (Int.emod_nonneg v (by decide))

/-- The two words of a double word are its digits to the base 65536, the low one first (spec/20_memory.md R62). -/
theorem words32_value (d : DWord) :
    (d.extractLsb' 16 16).toNat * 65536 + (d.extractLsb' 0 16).toNat = d.toNat := by
  rw [← un32_toNat, un32_words32]

/-! ### The characters of a String field -/

/-- Byte `i` of encoded words is in word `i / 2` (spec/44_word_codec.md R210). -/
theorem wordEncode_getD_half (ws : List Word) (i : Nat) :
    (wordEncode ws).getD i 0 = if i % 2 = 0 then lo (ws.getD (i / 2) 0) else hi (ws.getD (i / 2) 0) := by
  obtain ⟨heven, hodd⟩ := wordEncode_getD ws (i / 2)
  split
  · rw [← heven, Nat.mul_div_cancel' (Nat.dvd_of_mod_eq_zero ‹_›)]
  · rw [← hodd, Nat.two_mul_div_two_add_one_of_odd (Nat.odd_iff.mpr (by omega))]

/-- The padding of a string reads as what stands beyond its end. -/
theorem stringEncode_getD (cs : List Byte) (i : Nat) : (stringEncode cs).getD i 0 = cs.getD i 0 := by
  rw [stringEncode]
  by_cases hi : i < cs.length
  · rw [List.getD_append _ _ _ _ hi]
  · rw [List.getD_append_right _ _ _ _ (by omega), List.getD_eq_default cs 0 (by omega),
      List.getD_eq_getElem?_getD, List.getElem?_getD_replicate_default_eq]

theorem packChars_strWords_length (cs : List Byte) :
    (packChars cs (strWords cs.length)).length = cs.length / 2 + 1 := by
  rw [packChars_strWords, wordDecode_length, stringEncode_length, strPad]
  omega

/-- Word `k` of a packed string holds characters `2k` and `2k + 1`, NUL beyond the end (spec/45_record_marshaler.md
R241). -/
theorem packChars_strWords_getD (cs : List Byte) (k : Nat) :
    lo ((packChars cs (strWords cs.length)).getD k 0) = cs.getD (2 * k) 0 ∧
      hi ((packChars cs (strWords cs.length)).getD k 0) = cs.getD (2 * k + 1) 0 := by
  obtain ⟨hlo, hhi⟩ := wordEncode_getD (packChars cs (strWords cs.length)) k
  rw [← hlo, ← hhi, wordEncode_packChars, stringEncode_getD, stringEncode_getD]
  exact ⟨rfl, rfl⟩

theorem take_unpackChars_packChars (cs : List Byte) :
    (unpackChars (packChars cs (strWords cs.length))).take cs.length = cs := by
  rw [unpackChars_eq_wordEncode, wordEncode_packChars, take_stringEncode (Nat.le_refl _), List.take_length]

/-! ### Values that fit an entry -/

/-- The kind whose fields hold values of this variant (spec/45_record_marshaler.md R240). -/
def FieldVal.kind : FieldVal → FieldKind
  | .b _ => .bool
  | .i16 _ => .int16
  | .u16 _ => .uint16
  | .i32 _ => .int32
  | .u32 _ => .uint32
  | .s _ => .string

theorem variantFits_iff {k : FieldKind} {v : FieldVal} : variantFits k v = true ↔ k = v.kind := by
  cases k <;> cases v <;> simp [variantFits, FieldVal.kind]

/-- `RM.ENC` accepts the value in the entry's field (spec/45_record_marshaler.md R240, R242). -/
def FieldFits (e : LtEntry) (v : FieldVal) : Prop := variantFits e.kind v = true ∧ lengthFits e v = true

/-- Sixteen bits count the words of every field, also of the longest string. -/
theorem fieldWidth_lt (k : FieldKind) (c : Word) : fieldWidth k c < 2 ^ 16 := by
  have hc := c.isLt
  cases k with
  | bool | int16 | uint16 => exact (by decide : 1 < 2 ^ 16)
  | int32 | uint32 => exact (by decide : 2 < 2 ^ 16)
  | string =>
    simp only [fieldWidth, strWords_eq]
    omega

theorem fieldWidth_ofNat_toNat (k : FieldKind) (c : Word) :
    (BitVec.ofNat 16 (fieldWidth k c)).toNat = fieldWidth k c := by
  rw [BitVec.toNat_ofNat, Nat.mod_eq_of_lt (fieldWidth_lt k c)]

theorem entrySound_width {e : LtEntry} (h : entrySound e = true) : e.w.toNat = fieldWidth e.kind e.clen := by
  rw [entrySound, Bool.and_eq_true, beq_iff_eq] at h
  obtain ⟨hw, -⟩ := h
  rw [hw, fieldWidth_ofNat_toNat]

section
variable {e : LtEntry}

/-- An accepted value has the words its entry gives it. -/
theorem fieldEncode_length {v : FieldVal} (he : entrySound e = true) (hv : FieldFits e v) :
    (fieldEncode e v).length = e.w.toNat := by
  obtain ⟨hk, hl⟩ := hv
  rw [entrySound_width he, variantFits_iff.mp hk]
  cases v with
  | b x => rfl
  | i16 x => rfl
  | u16 x => rfl
  | i32 x => rfl
  | u32 x => rfl
  | s cs =>
    have hcs : cs.length = e.clen.toNat := by simpa [lengthFits] using hl
    rw [fieldEncode, ← hcs, packChars_strWords_length, FieldVal.kind, fieldWidth, ← hcs, strWords_eq]

/-- A value comes back from its words (spec/45_record_marshaler.md R243). -/
theorem fieldDecode_fieldEncode {v : FieldVal} (hv : FieldFits e v) (hr : v.inRange = true) :
    fieldDecode e (fieldEncode e v) = v := by
  obtain ⟨hk, hl⟩ := hv
  rw [fieldDecode, variantFits_iff.mp hk]
  cases v with
  | b x => cases x <;> rfl
  | i16 x => exact congrArg FieldVal.i16 (sext16_trunc16 (by simpa [FieldVal.inRange] using hr))
  | u16 x => rfl
  | i32 x =>
    have hx : sext32 (trunc32 x) = x := sext32_trunc32 (by simpa [FieldVal.inRange] using hr)
    exact congrArg FieldVal.i32 ((congrArg sext32 (un32_words32 (trunc32 x))).trans hx)
  | u32 x => exact congrArg FieldVal.u32 (un32_words32 x)
  | s cs =>
    have hcs : cs.length = e.clen.toNat := by simpa [lengthFits] using hl
    refine congrArg FieldVal.s ?_
    rw [fieldEncode, ← hcs, take_unpackChars_packChars]

theorem fieldDecode_kind (e : LtEntry) (ws : List Word) : (fieldDecode e ws).kind = e.kind := by
  rw [fieldDecode]
  split <;> simp only [FieldVal.kind, *]

/-- Decoded values are in the range of their type (spec/00_scope.md R12; log 24). -/
theorem fieldDecode_inRange (e : LtEntry) (ws : List Word) : (fieldDecode e ws).inRange = true := by
  rw [fieldDecode]
  split
  · rfl
  · exact decide_eq_true (sext16_range _)
  · rfl
  · exact decide_eq_true (sext32_range _)
  · rfl
  · rfl

/-- What a whole slice decodes to is a value its entry accepts. -/
theorem fieldDecode_fits {ws : List Word} (he : entrySound e = true) (hlen : ws.length = e.w.toNat) :
    FieldFits e (fieldDecode e ws) := by
  refine ⟨variantFits_iff.mpr (fieldDecode_kind e ws).symm, ?_⟩
  rw [entrySound_width he] at hlen
  rw [fieldDecode]
  split
  · rfl
  · rfl
  · rfl
  · rfl
  · rfl
  · next hk =>
    have hroom : e.clen.toNat ≤ (wordEncode ws).length := by
      rw [wordEncode_length]
      simp only [hk, fieldWidth, strWords_eq] at hlen
      omega
    rw [lengthFits, unpackChars_eq_wordEncode, List.length_take_of_le hroom]
    exact beq_self_eq_true _

/-- The words of a slice come back from its value, but for what `normalised` says of Bools and padding
(spec/45_record_marshaler.md R243). -/
theorem fieldEncode_fieldDecode {ws : List Word} (he : entrySound e = true) (hlen : e.w.toNat ≤ ws.length) :
    fieldEncode e (fieldDecode e (ws.take e.w.toNat)) = normalised [e] ws := by
  have hslice : (ws.take e.w.toNat).length = fieldWidth e.kind e.clen := by
    rw [List.length_take_of_le hlen, entrySound_width he]
  rw [normalised, normalised, List.append_nil]
  rw [entrySound_width he] at hslice ⊢
  generalize ws.take (fieldWidth e.kind e.clen) = slice at hslice ⊢
  obtain ⟨k, c, w⟩ := e
  cases k with
  | bool =>
    obtain ⟨w0, rfl⟩ := List.length_eq_one_iff.mp hslice
    by_cases h0 : w0 = 0 <;> simp [fieldDecode, fieldEncode, h0]
  | int16 =>
    obtain ⟨w0, rfl⟩ := List.length_eq_one_iff.mp hslice
    exact congrArg (fun w => [w]) (trunc16_sext16 w0)
  | uint16 =>
    obtain ⟨w0, rfl⟩ := List.length_eq_one_iff.mp hslice
    rfl
  | int32 =>
    obtain ⟨w0, w1, rfl⟩ := List.length_eq_two.mp hslice
    exact (congrArg words32 (trunc32_sext32 (un32 w0 w1))).trans (words32_un32 w0 w1)
  | uint32 =>
    obtain ⟨w0, w1, rfl⟩ := List.length_eq_two.mp hslice
    exact words32_un32 w0 w1
  | string => rfl

end

end Sys2Proof.Machine
end

section
/-! SUPPORT. The layouts of the record marshaler (spec/45_record_marshaler.md R231 to R233): the walk over descriptors,
and how an issued `RM.LAYOUT` or `RM.SIZEOF` ends. -/

namespace Sys2Proof.Machine

open Claims

/-! ### One descriptor -/

theorem wordsOf_cons (e : LtEntry) (es : List LtEntry) : wordsOf (e :: es) = e.w.toNat + wordsOf es := by
  rw [wordsOf, List.map_cons, List.sum_cons, ← wordsOf]

/-- The entry of an accepted descriptor of kind `k` and length `c` (spec/45_record_marshaler.md R231). -/
def entryOfKind (k : FieldKind) (c : Word) : LtEntry :=
  ⟨k, if k = .string then c else 0, BitVec.ofNat 16 (fieldWidth k c)⟩

/-- The claims' own table of descriptors accepts what the model's checks accept, with the same entry. -/
theorem entryFor_eq (d : Descriptor) :
    entryFor d = (kindOfCode (descKind d)).bind fun k =>
      if k = .string ∧ descClen d = 0 then none else some (entryOfKind k (descClen d)) := by
  unfold entryFor kindOfCode descKind descClen
  dsimp only
  generalize (d.extractLsb' 0 8).toNat = code
  generalize d.extractLsb' 8 16 = c
  match code with
  | 1 | 2 | 3 | 4 | 5 => rfl
  | 6 => simp [entryOfKind, fieldWidth, strWords_eq]
  | 0 | code + 7 => rfl

theorem entryFor_some {d : Descriptor} {e : LtEntry} (h : entryFor d = some e) :
    ∃ k, kindOfCode (descKind d) = some k ∧ ¬(k = .string ∧ descClen d = 0) ∧ e = entryOfKind k (descClen d) := by
  rw [entryFor_eq, Option.bind_eq_some_iff] at h
  obtain ⟨k, hk, he⟩ := h
  obtain ⟨hclen, he⟩ := Option.ite_none_left_eq_some.mp he
  exact ⟨k, hk, hclen, (Option.some.inj he).symm⟩

/-- The codes 0 and 7 to 255 stand for no kind (spec/30_encoding.md R113). -/
theorem kindOfCode_none {c : Byte} (h : c = 0 ∨ 7 ≤ c.toNat) : kindOfCode c = none := by
  have hcode : c.toNat = 0 ∨ 7 ≤ c.toNat := h.imp_left (congrArg BitVec.toNat)
  unfold kindOfCode
  generalize c.toNat = code at hcode
  match code with
  | 0 | code + 7 => rfl
  | 1 | 2 | 3 | 4 | 5 | 6 => omega

/-! ### The walk over the descriptors -/

theorem buildLayout_unsupported {d : Descriptor} (total : Nat) (ds : List Descriptor)
    (h : kindOfCode (descKind d) = none) : buildLayout total (d :: ds) = .error (.unsupportedFieldKind, .none) := by
  rw [buildLayout, h]

/-- A String without a length is rejected (spec/45_record_marshaler.md R231). -/
theorem buildLayout_missing (total : Nat) (ds : List Descriptor) :
    buildLayout total (0x000006 :: ds) = .error (.missingFieldMetadata, .none) := rfl

section
variable {total : Nat} {d : Descriptor} {e : LtEntry} {ds : List Descriptor}

/-- A supported descriptor is left to the check of the size. -/
theorem buildLayout_supported (h : entryFor d = some e) :
    buildLayout total (d :: ds) =
      if 0xFFFF < total + e.w.toNat then .error (.capacity, .layoutSize)
      else (buildLayout (total + e.w.toNat) ds).map (e :: ·) := by
  obtain ⟨k, hk, hclen, rfl⟩ := entryFor_some h
  rw [buildLayout, hk, entryOfKind, fieldWidth_ofNat_toNat]
  dsimp only
  rw [if_neg hclen]
  split
  · rfl
  · cases buildLayout (total + fieldWidth k (descClen d)) ds <;> rfl

theorem buildLayout_oversize (h : entryFor d = some e) (hsize : 0xFFFF < total + e.w.toNat) :
    buildLayout total (d :: ds) = .error (.capacity, .layoutSize) := by
  rw [buildLayout_supported h, if_pos hsize]

end

/-- Accepted descriptors give one entry each, and the walk goes on behind them. -/
theorem buildLayout_accepted {pre : List Descriptor} {es : List LtEntry} {total : Nat} (ds : List Descriptor)
    (h : pre.map entryFor = es.map some) (hsize : total + wordsOf es ≤ 0xFFFF) :
    buildLayout total (pre ++ ds) = (buildLayout (total + wordsOf es) ds).map (es ++ ·) := by
  induction pre generalizing es total with
  | nil =>
    obtain rfl : es = [] := List.map_eq_nil_iff.mp h.symm
    change buildLayout total ds = (buildLayout total ds).map ([] ++ ·)
    cases buildLayout total ds <;> rfl
  | cons d pre ih =>
    obtain ⟨e, es, rfl⟩ : ∃ e es', es = e :: es' := List.exists_cons_of_ne_nil (by rintro rfl; cases h)
    obtain ⟨hd, hpre⟩ := List.cons.inj h
    rw [wordsOf_cons, ← Nat.add_assoc] at hsize ⊢
    rw [List.cons_append, buildLayout_supported hd, if_neg (by omega), ih hpre hsize]
    cases buildLayout (total + e.w.toNat + wordsOf es) ds <;> rfl

/-- A descriptor that fails behind accepted ones decides the error of the whole list. -/
theorem buildLayout_first_error {pre post : List Descriptor} {d : Descriptor} {es : List LtEntry}
    {x : ErrKind × SubCause} (h : pre.map entryFor = es.map some) (hsize : wordsOf es ≤ 0xFFFF)
    (hx : buildLayout (wordsOf es) (d :: post) = .error x) : buildLayout 0 (pre ++ d :: post) = .error x := by
  rw [buildLayout_accepted _ h (by omega), Nat.zero_add, hx]
  rfl

theorem buildLayout_all_accepted {ds : List Descriptor} {es : List LtEntry} (h : ds.map entryFor = es.map some)
    (hsize : wordsOf es ≤ 0xFFFF) : buildLayout 0 ds = .ok es := by
  have hwalk := buildLayout_accepted [] h (by omega : 0 + wordsOf es ≤ 0xFFFF)
  rwa [List.append_nil, buildLayout, Except.map, List.append_nil] at hwalk

/-! ### How an issued operation ends -/

/-- UnsupportedFieldKind is kind 7, without a sub-cause (spec/60_exceptions.md R281, R282). -/
theorem errStatus_unsupportedFieldKind : errStatus .unsupportedFieldKind .none 0 = 0x000007 := by decide

/-- MissingFieldMetadata is kind 8, without a sub-cause (spec/60_exceptions.md R281, R282). -/
theorem errStatus_missingFieldMetadata : errStatus .missingFieldMetadata .none 0 = 0x000008 := by decide

/-- Capacity is kind 13, and the field limit its sub-cause 4 (spec/60_exceptions.md R281, R282). -/
theorem errStatus_fieldLimit : errStatus .capacity .fieldLimit 0 = 0x00004d := by decide

/-- Capacity is kind 13, and the layout size its sub-cause 5 (spec/60_exceptions.md R281, R282). -/
theorem errStatus_layoutSize : errStatus .capacity .layoutSize 0 = 0x00005d := by decide

/-- ShapeError is kind 11, and the missing layout its sub-cause 7 (spec/60_exceptions.md R281, R282). -/
theorem errStatus_noLayout : errStatus .shapeError .noLayout 0 = 0x00007b := by decide

theorem withLayout_valid {s : State} {o : Out} (h : s.ltValid = true) : withLayout s o = o := if_pos h

/-- Without a layout every operation that needs one ends alike (spec/45_record_marshaler.md R235). -/
theorem withLayout_none {op : Byte} {f : CwFields} {s : State} {o : Out} (h : s.ltValid = false) :
    withLayout (s.loadOperands op f) o = .next (failed op f 0x00007b s) := by
  rw [withLayout, if_neg (by simp [h]), loadOperands_complete, errStatus_noLayout]

section
variable {op : Byte} {f : CwFields} {s : State} {ds : List Descriptor}

theorem loadOperands_clearLayout_complete (k : ErrKind) (c : SubCause) :
    (s.loadOperands op f).clearLayout.complete k c 0 = failed op f (errStatus k c 0) (withoutTable s) := rfl

theorem loadOperands_setLayout_doneWith (es : List LtEntry) :
    ((s.loadOperands op f).clearLayout.setLayout es).doneWith [] = succeeded op f [] (withTable es s) := rfl

theorem exec_rmLayout_beyond (h : Ready s) (hdin : s.din = ds.map .desc) (hmax : s.params.maxFields < ds.length) :
    exec (.rmLayout f) s = .next (failed 0x60 f 0x00004d (withoutTable s)) := by
  rw [exec, execRmLayout, issue_withDin_items h (by rw [hdin, itemsAs_descs])]
  dsimp only
  rw [if_pos (by exact hmax), loadOperands_clearLayout_complete, errStatus_fieldLimit]

theorem exec_rmLayout_error {x : ErrKind × SubCause} (h : Ready s) (hdin : s.din = ds.map .desc)
    (hmax : ds.length ≤ s.params.maxFields) (hx : buildLayout 0 ds = .error x) :
    exec (.rmLayout f) s = .next (failed 0x60 f (errStatus x.1 x.2 0) (withoutTable s)) := by
  rw [exec, execRmLayout, issue_withDin_items h (by rw [hdin, itemsAs_descs])]
  dsimp only
  rw [if_neg (by exact Nat.not_lt.mpr hmax), hx]
  exact congrArg Host.Outcome.next (loadOperands_clearLayout_complete x.1 x.2)

theorem exec_rmLayout_succeeded {es : List LtEntry} (h : Ready s) (hdin : s.din = ds.map .desc)
    (hmax : ds.length ≤ s.params.maxFields) (hes : buildLayout 0 ds = .ok es) :
    exec (.rmLayout f) s = .next (succeeded 0x60 f [] (withTable es s)) := by
  rw [exec, execRmLayout, issue_withDin_items h (by rw [hdin, itemsAs_descs])]
  dsimp only
  rw [if_neg (by exact Nat.not_lt.mpr hmax), hes]
  exact congrArg Host.Outcome.next (loadOperands_setLayout_doneWith es)

/-- `RM.SIZEOF` after the checks of the port. -/
theorem exec_rmSizeof_ready (h : Ready s) :
    exec (.rmSizeof f) s =
      withLayout (s.loadOperands 0x61 f) (.next ((s.loadOperands 0x61 f).finishRes s.ltSize)) := by
  obtain ⟨hb, hd⟩ := h
  rw [exec, execRmSizeof, issue_ready hb hd]
  rfl

end

end Sys2Proof.Machine
end

section
/-! SUPPORT. The records (spec/45_record_marshaler.md R236, R240, R243): the walks over the fields, and how an issued
`RM.DEC` or `RM.ENC` ends. -/

namespace Sys2Proof.Machine

open Claims

/-! ### The decoder's walk -/

theorem recordDecode_length (es : List LtEntry) (ws : List Word) : (recordDecode es ws).length = es.length := by
  induction es generalizing ws with
  | nil => rfl
  | cons e es ih => rw [recordDecode, List.length_cons, ih, List.length_cons]

/-- Field `i` is decoded from the words at the sum of the widths before it (spec/45_record_marshaler.md R236). -/
theorem recordDecode_getElem? {es : List LtEntry} {i : Nat} {e : LtEntry} (ws : List Word) (h : es[i]? = some e) :
    (recordDecode es ws)[i]? = some (fieldDecode e ((ws.drop (wordsOf (es.take i))).take e.w.toNat)) := by
  induction es generalizing i ws with
  | nil => cases h
  | cons x es ih =>
    cases i with
    | zero =>
      cases h
      rfl
    | succ i =>
      rw [recordDecode, List.getElem?_cons_succ, ih _ h, List.take_succ_cons, wordsOf_cons, List.drop_drop]

theorem recordDecode_inRange {es : List LtEntry} {ws : List Word} {v : FieldVal} (h : v ∈ recordDecode es ws) :
    v.inRange = true := by
  induction es generalizing ws with
  | nil => cases h
  | cons e es ih =>
    obtain rfl | h := List.mem_cons.mp h
    · exact fieldDecode_inRange _ _
    · exact ih h

/-! ### The encoder's walk -/

/-- The words of a record's fields, one behind the other (spec/30_encoding.md R110). -/
def recordWords (es : List LtEntry) (vs : List FieldVal) : List Word := (List.zipWith fieldEncode es vs).flatten

theorem recordWords_cons (e : LtEntry) (es : List LtEntry) (v : FieldVal) (vs : List FieldVal) :
    recordWords (e :: es) (v :: vs) = fieldEncode e v ++ recordWords es vs := rfl

section
variable {e : LtEntry} {v : FieldVal} {es : List LtEntry} {vs : List FieldVal}

theorem recordEncode_variant (h : variantFits e.kind v = false) :
    recordEncode (e :: es) (v :: vs) = .error .fieldVariant := by
  rw [recordEncode, h]
  rfl

theorem recordEncode_stringLength (hk : variantFits e.kind v = true) (hl : lengthFits e v = false) :
    recordEncode (e :: es) (v :: vs) = .error .stringLength := by
  rw [recordEncode, hk, hl]
  rfl

theorem recordEncode_cons (h : FieldFits e v) :
    recordEncode (e :: es) (v :: vs) = (recordEncode es vs).map (fieldEncode e v ++ ·) := by
  obtain ⟨hk, hl⟩ := h
  rw [recordEncode, hk, hl]
  cases recordEncode es vs <;> rfl

/-- Behind fields that are accepted, the first one that fails decides the error (spec/45_record_marshaler.md R240). -/
theorem recordEncode_first_error {c : SubCause} {i : Nat} (he : es[i]? = some e) (hv : vs[i]? = some v)
    (hbefore : ∀ j e' v', j < i → es[j]? = some e' → vs[j]? = some v' → FieldFits e' v')
    (hc : ∀ es' vs', recordEncode (e :: es') (v :: vs') = .error c) : recordEncode es vs = .error c := by
  induction es generalizing i vs with
  | nil => cases he
  | cons e₀ es ih =>
    cases vs with
    | nil => cases hv
    | cons v₀ vs =>
      cases i with
      | zero =>
        cases he
        cases hv
        exact hc es vs
      | succ i =>
        have hrest := ih he hv fun j e' v' hj => hbefore (j + 1) e' v' (Nat.succ_lt_succ hj)
        rw [recordEncode_cons (hbefore 0 e₀ v₀ (Nat.succ_pos i) rfl rfl), hrest]
        rfl

theorem recordEncode_fits (h : List.Forall₂ FieldFits es vs) : recordEncode es vs = .ok (recordWords es vs) := by
  induction h with
  | nil => rfl
  | cons hv _ ih =>
    rw [recordEncode_cons hv, ih]
    rfl

/-- The walk succeeds only on fields that are all accepted. -/
theorem fits_of_recordEncode_ok {ws : List Word} (hlen : es.length = vs.length) (h : recordEncode es vs = .ok ws) :
    List.Forall₂ FieldFits es vs := by
  induction es generalizing vs ws with
  | nil =>
    rw [List.length_eq_zero_iff.mp hlen.symm]
    exact .nil
  | cons e es ih =>
    obtain ⟨v, vs, rfl⟩ := List.exists_cons_of_length_eq_add_one hlen.symm
    cases hk : variantFits e.kind v with
    | false => cases (recordEncode_variant hk).symm.trans h
    | true =>
      cases hl : lengthFits e v with
      | false => cases (recordEncode_stringLength hk hl).symm.trans h
      | true =>
        rw [recordEncode_cons ⟨hk, hl⟩] at h
        cases hr : recordEncode es vs with
        | error c =>
          rw [hr] at h
          cases h
        | ok rest => exact .cons ⟨hk, hl⟩ (ih (Nat.succ.inj hlen) hr)

/-! ### The two walks together -/

theorem layoutWords_cons (e : LtEntry) (es : List LtEntry) : layoutWords (e :: es) = e.w.toNat + layoutWords es :=
  wordsOf_cons e es

theorem recordWords_length (hes : ∀ e ∈ es, entrySound e = true) (h : List.Forall₂ FieldFits es vs) :
    (recordWords es vs).length = layoutWords es := by
  induction h with
  | nil => rfl
  | @cons e v es vs hv _ ih =>
    obtain ⟨he, hes⟩ := List.forall_mem_cons.mp hes
    rw [recordWords_cons, List.length_append, fieldEncode_length he hv, ih hes, layoutWords_cons]

/-- A record comes back from its words (spec/45_record_marshaler.md R243). -/
theorem recordDecode_recordWords (hes : ∀ e ∈ es, entrySound e = true) (hvs : ∀ v ∈ vs, v.inRange = true)
    (h : List.Forall₂ FieldFits es vs) : recordDecode es (recordWords es vs) = vs := by
  induction h with
  | nil => rfl
  | @cons e v es vs hv _ ih =>
    obtain ⟨he, hes⟩ := List.forall_mem_cons.mp hes
    obtain ⟨hr, hvs⟩ := List.forall_mem_cons.mp hvs
    have hlen := fieldEncode_length he hv
    rw [recordWords_cons, recordDecode, ← hlen, List.take_left, List.drop_left, fieldDecode_fieldEncode hv hr,
      ih hes hvs]

theorem recordDecode_fits {ws : List Word} (hes : ∀ e ∈ es, entrySound e = true)
    (hlen : ws.length = layoutWords es) : List.Forall₂ FieldFits es (recordDecode es ws) := by
  induction es generalizing ws with
  | nil => exact .nil
  | cons e es ih =>
    obtain ⟨he, hes⟩ := List.forall_mem_cons.mp hes
    rw [layoutWords_cons] at hlen
    refine .cons (fieldDecode_fits he ?_) (ih hes ?_)
    · exact List.length_take_of_le (by omega)
    · rw [List.length_drop]
      omega

theorem normalised_cons (e : LtEntry) (es : List LtEntry) (ws : List Word) :
    normalised (e :: es) ws = normalised [e] ws ++ normalised es (ws.drop e.w.toNat) := by
  rw [normalised, normalised, normalised, List.append_nil]

/-- The words of a record come back normalised from it (spec/45_record_marshaler.md R243). -/
theorem recordWords_recordDecode {ws : List Word} (hes : ∀ e ∈ es, entrySound e = true)
    (hlen : ws.length = layoutWords es) : recordWords es (recordDecode es ws) = normalised es ws := by
  induction es generalizing ws with
  | nil => rfl
  | cons e es ih =>
    obtain ⟨he, hes⟩ := List.forall_mem_cons.mp hes
    rw [layoutWords_cons] at hlen
    rw [recordDecode, recordWords_cons, fieldEncode_fieldDecode he (by omega),
      ih hes (by rw [List.length_drop]; omega), normalised_cons e es]

end

/-! ### The table -/

theorem layout_eq {s : State} (h : s.ltF.length = s.ltN) : s.layout = s.ltF := by
  rw [State.layout, ← h, List.take_length]

/-- A sound table with a layout lists its entries, each of the width of its field, and their words in all. -/
theorem layoutSound_valid {s : State} (hs : s.layoutSound = true) (hv : s.ltValid = true) :
    s.ltF.length = s.ltN ∧ (∀ e ∈ s.ltF, entrySound e = true) ∧ s.ltSize.toNat = layoutWords s.ltF := by
  rw [State.layoutSound, if_pos hv] at hs
  simp only [Bool.and_eq_true, beq_iff_eq, decide_eq_true_eq, List.all_eq_true] at hs
  obtain ⟨⟨⟨hn, -⟩, hall⟩, hsize⟩ := hs
  exact ⟨hn, hall, hsize⟩

/-! ### How an issued operation ends -/

/-- ShapeError is kind 11, and the word count its sub-cause 3 (spec/60_exceptions.md R281, R282). -/
theorem errStatus_wordCount : errStatus .shapeError .wordCount 0 = 0x00003b := by decide

/-- ShapeError is kind 11, and the field count its sub-cause 4 (spec/60_exceptions.md R281, R282). -/
theorem errStatus_fieldCount : errStatus .shapeError .fieldCount 0 = 0x00004b := by decide

/-- ShapeError is kind 11, and the field variant its sub-cause 5 (spec/60_exceptions.md R281, R282). -/
theorem errStatus_fieldVariant : errStatus .shapeError .fieldVariant 0 = 0x00005b := by decide

/-- ShapeError is kind 11, and the string length its sub-cause 6 (spec/60_exceptions.md R281, R282). -/
theorem errStatus_stringLength : errStatus .shapeError .stringLength 0 = 0x00006b := by decide

section
variable {f : CwFields} {s : State}

theorem exec_rmDec_noLayout {ws : List Word} (h : Ready s) (hdin : s.din = ws.map .word) (hv : s.ltValid = false) :
    exec (.rmDec f) s = .next (failed 0x62 f 0x00007b s) := by
  rw [exec, execRmDec, issue_withDin_items h (by rw [hdin, itemsAs_words]), withLayout_none hv]

/-- `RM.DEC` with a layout: its check of the words, then its result. -/
theorem exec_rmDec_valid {ws : List Word} (h : Ready s) (hdin : s.din = ws.map .word) (hv : s.ltValid = true) :
    exec (.rmDec f) s =
      if ws.length ≠ s.ltSize.toNat then .next (failed 0x62 f 0x00003b s)
      else .next ((s.loadOperands 0x62 f).finish ((recordDecode s.layout ws).map .val)) := by
  rw [exec, execRmDec, issue_withDin_items h (by rw [hdin, itemsAs_words]), withLayout_valid (by exact hv),
    loadOperands_complete, errStatus_wordCount]
  rfl

theorem exec_rmDec_succeeded {ws : List Word} {vs : List FieldVal} (h : Ready s) (hdin : s.din = ws.map .word)
    (hv : s.ltValid = true) (hlen : ws.length = s.ltSize.toNat) (hn : s.ltF.length = s.ltN) (hfits : Fits s s.ltN)
    (hvs : recordDecode s.ltF ws = vs) : exec (.rmDec f) s = .next (succeeded 0x62 f (vs.map .val) s) := by
  have hout : (vs.map Item.val).length = s.ltN := by rw [List.length_map, ← hvs, recordDecode_length, hn]
  rw [exec_rmDec_valid h hdin hv, if_neg (not_not.mpr hlen), layout_eq hn, hvs, loadOperands_finish (by rwa [hout])]

section
variable {vs : List FieldVal} (h : Ready s) (hdin : s.din = vs.map .val) (hr : ∀ v ∈ vs, v.inRange = true)
include h hdin hr

theorem exec_rmEnc_noLayout (hv : s.ltValid = false) :
    exec (.rmEnc f) s = .next (failed 0x63 f 0x00007b s) := by
  rw [exec, execRmEnc, issue_withDin_items h (by rw [hdin, itemsAs_vals vs hr]), withLayout_none hv]

theorem exec_rmEnc_fieldCount (hv : s.ltValid = true) (hlen : vs.length ≠ s.ltN) :
    exec (.rmEnc f) s = .next (failed 0x63 f 0x00004b s) := by
  rw [exec, execRmEnc, issue_withDin_items h (by rw [hdin, itemsAs_vals vs hr]), withLayout_valid (by exact hv),
    if_pos (by exact hlen), loadOperands_complete, errStatus_fieldCount]

variable (hv : s.ltValid = true) (hlen : vs.length = s.ltN) (hn : s.ltF.length = s.ltN)
include hv hlen hn

theorem exec_rmEnc_error {c : SubCause} (hc : recordEncode s.ltF vs = .error c) :
    exec (.rmEnc f) s = .next (failed 0x63 f (errStatus .shapeError c 0) s) := by
  have hwalk : recordEncode (s.loadOperands 0x63 f).layout vs = .error c :=
    (congrArg (recordEncode · vs) (layout_eq hn)).trans hc
  rw [exec, execRmEnc, issue_withDin_items h (by rw [hdin, itemsAs_vals vs hr]), withLayout_valid (by exact hv),
    if_neg (by exact not_not.mpr hlen), hwalk]
  rfl

theorem exec_rmEnc_succeeded {ws : List Word} (hws : recordEncode s.ltF vs = .ok ws) (hfits : Fits s ws.length) :
    exec (.rmEnc f) s = .next (succeeded 0x63 f (ws.map .word) s) := by
  have hwalk : recordEncode (s.loadOperands 0x63 f).layout vs = .ok ws :=
    (congrArg (recordEncode · vs) (layout_eq hn)).trans hws
  rw [exec, execRmEnc, issue_withDin_items h (by rw [hdin, itemsAs_vals vs hr]), withLayout_valid (by exact hv),
    if_neg (by exact not_not.mpr hlen), hwalk]
  exact congrArg Host.Outcome.next (loadOperands_finish (by rwa [List.length_map]))

end

/-! ### What a success says -/

/-- A successful operation that needs a layout has found one. -/
theorem withLayout_success {t : State} {o : Out} (h : withLayout s o = .next t) (ht : t.status = 0) :
    s.ltValid = true ∧ o = .next t := by
  obtain hv | ⟨-, rfl⟩ := withLayout_next h
  · exact hv
  · exact absurd ht (errStatus_ne_zero _ _ _)

/-- A success has delivered the whole result, which `DOUT` can hold. -/
theorem finish_success {out : List Item} (ht : (s.finish out).status = 0) :
    s.overCapacity out.length = false ∧ s.finish out = s.doneWith out := by
  obtain hdone | ⟨-, he⟩ := finish_cases s out
  · exact hdone
  · rw [he] at ht
    exact absurd ht (errStatus_ne_zero _ _ _)

theorem execRmDec_success {t : State} {ws : List Word} (hdin : s.din = ws.map .word) (h : execRmDec f s = .next t)
    (ht : t.status = 0) :
    s.ltValid = true ∧ ws.length = s.ltSize.toNat ∧ s.overCapacity (recordDecode s.layout ws).length = false ∧
      t = (s.loadOperands 0x62 f).doneWith ((recordDecode s.layout ws).map .val) := by
  obtain ⟨-, -, h⟩ := issue_next h
  rw [withDin_some (xs := ws) (by rw [State.loadOperands_din, hdin, itemsAs_words])] at h
  obtain ⟨hv, h⟩ := withLayout_success h ht
  split at h
  · cases h
    exact absurd ht (errStatus_ne_zero _ _ _)
  · next hlen =>
    cases h
    obtain ⟨hcap, he⟩ := finish_success ht
    rw [List.length_map] at hcap
    exact ⟨hv, not_not.mp hlen, hcap, he⟩

theorem execRmEnc_success {t : State} {vs : List FieldVal} (hdin : s.din = vs.map .val)
    (h : execRmEnc f s = .next t) (ht : t.status = 0) :
    (∀ v ∈ vs, v.inRange = true) ∧ s.ltValid = true ∧ vs.length = s.ltN ∧ ∃ ws, recordEncode s.layout vs = .ok ws ∧
      s.overCapacity ws.length = false ∧ t = (s.loadOperands 0x63 f).doneWith (ws.map .word) := by
  obtain ⟨-, -, h⟩ := issue_next h
  obtain ⟨vs', hitems, h⟩ := withDin_next h
  obtain ⟨hvs, hr⟩ := itemsAs_vals_some hitems
  rw [State.loadOperands_din, hdin] at hvs
  obtain rfl : vs = vs' := List.map_injective_iff.mpr (fun _ _ => Item.val.inj) hvs
  obtain ⟨hv, h⟩ := withLayout_success h ht
  split at h
  · cases h
    exact absurd ht (errStatus_ne_zero _ _ _)
  next hlen =>
  split at h
  · next ws hws =>
    cases h
    obtain ⟨hcap, he⟩ := finish_success ht
    rw [List.length_map] at hcap
    exact ⟨hr, hv, not_not.mp hlen, ws, hws, hcap, he⟩
  · cases h
    exact absurd ht (errStatus_ne_zero _ _ _)

/-! ### One operation on what the other delivered -/

variable {g : CwFields} {t : State}

/-- A successful `RM.ENC` has written the whole table's words, and `RM.DEC` reads the record back from them. -/
theorem exec_rmDec_after_rmEnc {vs : List FieldVal} (hs : s.layoutSound = true) (hdin : s.din = vs.map .val)
    (henc : exec (.rmEnc f) s = .next t) (ht : t.status = 0) (hfits : Fits s vs.length) :
    t.dout.length = s.ltSize.toNat ∧
      exec (.rmDec g) { t with din := t.dout } = .next (succeeded 0x62 g (vs.map .val) { t with din := t.dout }) := by
  obtain ⟨hr, hv, hlen, ws, hws, hcap, rfl⟩ := execRmEnc_success hdin henc ht
  obtain ⟨hn, hes, hsize⟩ := layoutSound_valid hs hv
  rw [layout_eq hn] at hws
  have hfields := fits_of_recordEncode_ok (hn.trans hlen.symm) hws
  obtain rfl : recordWords s.ltF vs = ws := Except.ok.inj ((recordEncode_fits hfields).symm.trans hws)
  have hwords : (recordWords s.ltF vs).length = s.ltSize.toNat := (recordWords_length hes hfields).trans hsize.symm
  refine ⟨(List.length_map _).trans hwords, ?_⟩
  have hcap' : s.overCapacity ((recordWords s.ltF vs).map Item.word).length = false := by rwa [List.length_map]
  exact exec_rmDec_succeeded ⟨rfl, hcap'⟩ rfl hv hwords hn (hlen ▸ hfits) (recordDecode_recordWords hes hr hfields)

/-- A successful `RM.DEC` has read a record that `RM.ENC` accepts, and its words are the normalised ones. -/
theorem exec_rmEnc_after_rmDec {ws : List Word} (hs : s.layoutSound = true) (hdin : s.din = ws.map .word)
    (hdec : exec (.rmDec f) s = .next t) (ht : t.status = 0) (hfits : Fits s ws.length) :
    exec (.rmEnc g) { t with din := t.dout } =
      .next (succeeded 0x63 g ((normalised s.ltF ws).map .word) { t with din := t.dout }) := by
  obtain ⟨hv, hlen, hcap, rfl⟩ := execRmDec_success hdin hdec ht
  obtain ⟨hn, hes, hsize⟩ := layoutSound_valid hs hv
  rw [layout_eq hn] at hcap ⊢
  have hwords : ws.length = layoutWords s.ltF := hlen.trans hsize
  have hfields := recordDecode_fits hes hwords
  have hnorm : recordWords s.ltF (recordDecode s.ltF ws) = normalised s.ltF ws := recordWords_recordDecode hes hwords
  have henc := recordEncode_fits hfields
  have hout := recordWords_length hes hfields
  rw [hnorm] at henc hout
  have hcap' : s.overCapacity ((recordDecode s.ltF ws).map Item.val).length = false := by rwa [List.length_map]
  have hfits' : Fits s (normalised s.ltF ws).length := by rwa [hout, ← hwords]
  exact exec_rmEnc_succeeded (s := { (s.loadOperands 0x62 f).doneWith _ with din := _ }) ⟨rfl, hcap'⟩ rfl
    (fun _ => recordDecode_inRange) hv ((recordDecode_length _ _).trans hn) hn henc hfits'

end

end Sys2Proof.Machine
end

section
/-! The statements of the family of the record marshaler. -/

namespace Sys2Proof.Proofs

open Machine Claims

/-- Settles O26: the walk accepts every descriptor. -/
theorem layoutFillsTheTable : Obligations.LayoutFillsTheTable := by
  intro f s ds es h hdin hmax hes hsize
  exact exec_rmLayout_succeeded h hdin hmax (buildLayout_all_accepted hes hsize)

/-- Settles O27: the limit on the descriptors, then the walk up to the first one that fails, in each of its three
ways. -/
theorem layoutErrorClearsTheTable : Obligations.LayoutErrorClearsTheTable := by
  intro f s ds h hdin
  refine ⟨exec_rmLayout_beyond h hdin, fun pre post d es hds hmax hpre hsize => ?_⟩
  subst hds
  have hfail {x : ErrKind × SubCause} (hx : buildLayout (wordsOf es) (d :: post) = .error x) :=
    exec_rmLayout_error (f := f) h hdin hmax (buildLayout_first_error hpre hsize hx)
  refine ⟨fun hkind => ?_, fun hd => ?_, fun e he hover => ?_⟩
  · rw [hfail (buildLayout_unsupported _ _ (kindOfCode_none hkind)), errStatus_unsupportedFieldKind]
  · subst hd
    rw [hfail (buildLayout_missing _ _), errStatus_missingFieldMetadata]
  · rw [hfail (buildLayout_oversize he hover), errStatus_layoutSize]

/-- Settles O28: each side of the layout check. -/
theorem sizeofReportsTheSize : Obligations.SizeofReportsTheSize := by
  intro f s h
  rw [exec_rmSizeof_ready h]
  exact ⟨fun hv => withLayout_valid hv, fun hv => withLayout_none hv⟩

/-- Settles O29: each side of the two checks; the values are those of `recordDecode`, field by field. -/
theorem rmDecWalksTheFields : Obligations.RmDecWalksTheFields := by
  intro f s ws h hdin
  refine ⟨exec_rmDec_noLayout h hdin, fun hv hlen => ?_, fun hv hlen hn hfits => ?_⟩
  · rw [exec_rmDec_valid h hdin hv, if_pos hlen]
  · exact ⟨recordDecode s.ltF ws, exec_rmDec_succeeded h hdin hv hlen hn hfits rfl, (recordDecode_length _ _).trans hn,
      fun i e => recordDecode_getElem? ws⟩

/-- Settles O31: the checks of the table and of the number of fields, then the walk up to the first field that fails, or
through all of them. -/
theorem rmEncWalksTheFields : Obligations.RmEncWalksTheFields := by
  intro f s vs h hdin hr
  refine ⟨exec_rmEnc_noLayout h hdin hr, exec_rmEnc_fieldCount h hdin hr, fun hv hlen hn => ⟨?_, ?_⟩⟩
  · intro i e v he hvi hbefore
    refine ⟨fun hk => ?_, fun hk hl => ?_⟩
    · rw [exec_rmEnc_error h hdin hr hv hlen hn
        (recordEncode_first_error he hvi hbefore fun _ _ => recordEncode_variant hk), errStatus_fieldVariant]
    · rw [exec_rmEnc_error h hdin hr hv hlen hn
        (recordEncode_first_error he hvi hbefore fun _ _ => recordEncode_stringLength hk hl), errStatus_stringLength]
  · intro hall hfits
    have hfields : List.Forall₂ FieldFits s.ltF vs :=
      List.forall₂_iff_get.mpr ⟨hn.trans hlen.symm, fun i hi hi' =>
        hall i _ _ (List.getElem?_eq_getElem hi) (List.getElem?_eq_getElem hi')⟩
    exact exec_rmEnc_succeeded h hdin hr hv hlen hn (recordEncode_fits hfields) hfits

/-- Settles O33: the decoder's walk undoes the encoder's on fields it accepts. -/
theorem recordsRoundTrip : Obligations.RecordsRoundTrip :=
  fun _ _ _ _ _ => exec_rmDec_after_rmEnc

/-- Settles O34: the encoder accepts what the decoder delivers, and undoes its walk but for what the values forget. -/
theorem recordWordsComeBackNormalised : Obligations.RecordWordsComeBackNormalised :=
  fun _ _ _ _ _ => exec_rmEnc_after_rmDec

/-- Settles O30: kind by kind; the signed numbers by their range and their value modulo `2 ^ 32`, the characters by
their words. -/
theorem fieldsDecodeByKind : Obligations.FieldsDecodeByKind := by
  intro c w w0 w1 ws
  refine ⟨?_, rfl, rfl, ⟨_, rfl, ?_⟩, ⟨_, rfl, un32_toNat w0 w1⟩, fun hlen => ⟨_, rfl, ?_, fun i hi => ?_⟩⟩
  · have hbool : (w != 0) = if w = 0 then false else true := by
      by_cases h : w = 0
      · rw [if_pos h, h]; rfl
      · rw [if_neg h, bne_iff_ne]; exact h
    exact congrArg FieldVal.b hbool
  · obtain ⟨hlow, hhigh⟩ := sext32_range (un32 w0 w1)
    refine ⟨hlow, hhigh, ?_⟩
    exact (sext32_emod (un32 w0 w1)).trans (congrArg Nat.cast (un32_toNat w0 w1))
  · have hroom : c.toNat ≤ (wordEncode ws).length := by
      rw [wordEncode_length]
      omega
    exact List.length_take_of_le hroom
  · rw [← wordEncode_getD_half, List.getD_eq_getElem?_getD, List.getElem?_take_of_lt hi,
      unpackChars_eq_wordEncode, List.getD_eq_getElem?_getD]

/-- Settles O32: kind by kind; a signed number by the word that extends to it or the two that are its residue, the
characters by their words. -/
theorem fieldsEncodeByKind : Obligations.FieldsEncodeByKind := by
  intro e b v w d cs
  refine ⟨rfl, fun hlow hhigh => ⟨_, rfl, ?_⟩, rfl, fun hlow hhigh => ⟨_, _, rfl, ?_⟩, ⟨_, _, rfl, words32_value d⟩,
    fun hlen => ⟨_, rfl, ?_⟩⟩
  · rw [← sext16_eq_toInt, sext16_trunc16 ⟨hlow, hhigh⟩]
  · rw [words32_value, trunc32_toNat]
  · rw [fieldEncode, ← hlen]
    exact ⟨packChars_strWords_length cs, packChars_strWords_getD cs⟩

end Sys2Proof.Proofs
end

section
/-! SUPPORT. What a host sequence gets from the block (spec/46_host_sequences.md): where the guard stops it, and, under
an unbounded `MAX_ITEMS`, what each of its parts that succeeds hands to the next. -/

namespace Sys2Proof.Machine

open Claims

/-! ### The state between two parts of a sequence -/

/-- No operation is in progress, and the parameters are `p`. -/
structure PortFree (p : Params) (s : State) : Prop where
  busy : s.busy = false
  params : s.params = p

/-- The same with nothing left of an earlier response, on an open stream: one exchange can begin. -/
structure CanExchange (p : Params) (s : State) : Prop extends PortFree p s where
  rxBytes : s.rxBytes = []
  rxTerm : s.rxTerm = .stillOpen

section
variable {p : Params} {s : State}

theorem overCapacity_unbounded (hm : s.params.maxItems = none) (n : Nat) : s.overCapacity n = false := by
  rw [State.overCapacity, hm]

/-- Presenting a `DIN` is no operation. -/
theorem PortFree.present (h : PortFree p s) (din : List Item) : PortFree p { s with din := din } :=
  ⟨h.busy, h.params⟩

theorem PortFree.ready (h : PortFree p s) (hm : p.maxItems = none) : Ready s :=
  ⟨h.busy, overCapacity_unbounded (by rw [h.params, hm]) _⟩

theorem PortFree.fits {n : Nat} (h : PortFree p s) (hm : p.maxItems = none) (hn : n < 2 ^ 32) : Fits s n :=
  ⟨overCapacity_unbounded (by rw [h.params, hm]) n, hn⟩

/-- Handing a frame to `writeAll` takes nothing from the block (spec/46_host_sequences.md R260). -/
theorem CanExchange.send (h : CanExchange p s) (frame : List Byte) : CanExchange p (s.send frame) :=
  ⟨⟨h.busy, h.params⟩, h.rxBytes, h.rxTerm⟩

theorem CanExchange.succeeded (h : CanExchange p s) (op : Byte) (f : CwFields) (out : List Item) :
    CanExchange p (succeeded op f out s) :=
  ⟨⟨rfl, h.params⟩, h.rxBytes, h.rxTerm⟩

/-! ### Where the guard stops a sequence -/

section
variable {α : Type} {d : Byte} {want : DevKind} (k : Unit → State → HostResult α)

theorem andThen_guard_not_connected {c : Conn} (h : c ≠ .connected) :
    andThen (guard c d want s) k = (s, .error .notConnected) := by
  rw [guard_not_connected h, andThen_error]

/-- A device of the other kind ends every guarded sequence after `DT.KIND`, which sends and receives nothing. -/
theorem andThen_guard_mismatch {row : DevRow} (hb : s.busy = false) (hm : s.params.maxItems = none)
    (hrow : s.params.devtab[d.toNat]? = some row) (hkind : row.kind ≠ want) :
    StopsBeforeIo (andThen (guard .connected d want s) k) .deviceKindMismatch s := by
  rw [guard_connected hb hm hrow, if_neg hkind, andThen_error]
  exact ⟨rfl, rfl, rfl, rfl⟩

end

/-- The layout that `readStruct` loads before its guard (spec/46_host_sequences.md R269). -/
theorem hostIssue_rmLayout_accepted {ds : List Descriptor} {es : List LtEntry} (h : PortFree p s)
    (hm : p.maxItems = none) (hmax : ds.length ≤ s.params.maxFields) (hes : ds.map entryFor = es.map some)
    (hsize : wordsOf es ≤ 0xFFFF) :
    hostIssue (.rmLayout (fields 0 0 0 0)) (ds.map .desc) s =
      (succeeded 0x60 (fields 0 0 0 0) [] (withTable es { s with din := ds.map .desc }), .ok ()) :=
  hostIssue_success (exec_rmLayout_succeeded ((h.present _).ready hm) rfl hmax (buildLayout_all_accepted hes hsize)) rfl

/-! ### The parts of a sequence that succeed -/

/-- A device of the wanted kind passes the guard, and an exchange can still begin. -/
theorem guard_passes {d : Byte} {row : DevRow} (h : CanExchange p s) (hm : p.maxItems = none)
    (hrow : p.devtab[d.toNat]? = some row) :
    ∃ t, guard .connected d row.kind s = (t, .ok ()) ∧ CanExchange p t := by
  rw [guard_connected h.busy (by rw [h.params, hm]) (by rw [h.params, hrow]), if_pos rfl]
  exact ⟨_, rfl, ⟨rfl, h.params⟩, h.rxBytes, h.rxTerm⟩

/-- `FE.READ` on a device of the table makes its frame and leaves the stream alone (spec/41_frame_encoder.md R151). -/
theorem hostIssue_feRead_succeeded {f : CwFields} {row : DevRow} (h : CanExchange p s) (hm : p.maxItems = none)
    (hrow : p.devtab[f.dev.toNat]? = some row) (hcount : f.count.toNat ≤ p.maxCount) :
    ∃ t, hostIssue (.feRead f) [] s = (t, .ok ()) ∧ CanExchange p t := by
  have hfree := h.toPortFree.present []
  obtain ⟨-, hread⟩ := Proofs.feReadBuildsTheReadFrame f _ (hfree.ready hm)
  obtain ⟨-, hread⟩ := hread row (by rw [hfree.params, hrow])
  have hnext := hread (by rwa [hfree.params]) (hfree.fits hm (by decide))
  exact ⟨_, hostIssue_success hnext rfl, CanExchange.succeeded ⟨hfree, h.rxBytes, h.rxTerm⟩ _ _ _⟩

/-- `WC.DEC` gives back the words whose encoding it is handed (spec/44_word_codec.md R213). -/
theorem hostIssue_wcDec_wordEncode {f : CwFields} {ws : List Word} (h : PortFree p s) (hm : p.maxItems = none)
    (hlen : ws.length < 2 ^ 32) :
    ∃ t, hostIssue (.wcDec f) ((wordEncode ws).map .byte) s = (t, .ok ()) ∧ t.dout = ws.map .word := by
  have hbytes := wordEncode_length ws
  have hfree := h.present ((wordEncode ws).map .byte)
  have hnext := exec_wcDec_succeeded (f := f) (hfree.ready hm) rfl (by omega) (hfree.fits hm (by omega))
  rw [wordDecode_wordEncode] at hnext
  exact ⟨_, hostIssue_success hnext rfl, rfl⟩

/-! ### One exchange -/

theorem recvSteps_params (n : Nat) (s : State) : (recvSteps n s).params = s.params := by
  induction n generalizing s with
  | zero => rfl
  | succ n ih =>
    cases h : recvStep s with
    | none => rw [recvSteps_none h]
    | some t => rw [recvSteps_some h, ih, continues_params (recvStep_some h)]

/-- What arrives on an open stream is appended to it. -/
theorem deliver_append_open (h : s.rxTerm = .stillOpen) (bs : List Byte) :
    deliver [.append bs] s = s.receive bs := by
  rw [deliver, if_pos h, deliver]

theorem completed_success (h : s.status = 0) : completed s = (s, .ok ()) := by
  rw [completed, State.err, h]
  rfl

/-- The issue of `RD.RECV` waits for its first byte on the stream as it was (spec/42_response_decoder.md R172). -/
theorem exec_rdRecv_waits (f : CwFields) (h : CanExchange p s) (hm : p.maxItems = none) :
    ∃ t, exec (.rdRecv f) s = .next t ∧ t.phase = .waitStart ∧ t.params = p ∧ t.rxBytes = [] ∧
      t.rxTerm = .stillOpen :=
  ⟨_, Proofs.recvIssueStartsTheReception f s (h.ready hm), rfl, h.params, h.rxBytes, h.rxTerm⟩

/-- `RD.RECV` as the host runs it, where what arrives lets the three steps complete with success. -/
theorem hostReceive_success {x : Exchange} {t u : State} {payload : List Byte}
    (hissue : exec (.rdRecv (fields 0 0 0 0)) s = .next t) (harrive : deliver x.reply t = u)
    (hfree : (recvSteps 3 u).busy = false) (hstatus : (recvSteps 3 u).status = 0)
    (hdout : (recvSteps 3 u).dout = bytes payload) : hostReceive x s = (recvSteps 3 u, .ok payload) := by
  rw [hostReceive, hissue]
  dsimp only
  rw [harrive, if_neg (by rw [hfree]; decide), completed_success hstatus, andThen_ok, doutBytes, hdout, itemsAs_bytes]
  rfl

/-- The sub-header length of either response form, which so many ignored bytes fit (spec/30_encoding.md R101, R102). -/
theorem response_form {disc : Byte} {routing : List Byte}
    (h : disc = 0xd0 ∧ routing.length = 6 ∨ disc = 0xd4 ∧ routing.length = 10) :
    ∃ shl, discLength disc = some shl ∧ routingFits shl routing = true := by
  obtain ⟨rfl, hlen⟩ | ⟨rfl, hlen⟩ := h
  · exact ⟨8, rfl, beq_iff_eq.mpr hlen⟩
  · exact ⟨12, rfl, beq_iff_eq.mpr hlen⟩

/-- With a whole response of status zero in reply, the exchange gives its payload and leaves the port free. -/
theorem exchange_response {disc : Byte} {routing payload : List Byte} (h : CanExchange p s) (hm : p.maxItems = none)
    (hform : disc = 0xd0 ∧ routing.length = 6 ∨ disc = 0xd4 ∧ routing.length = 10)
    (hmax : payload.length + 2 ≤ p.maxBody) (hlen : payload.length + 2 ≤ 65535) :
    ∃ t, exchange ⟨true, [.append (encodeResponse disc routing (0 :: 0 :: payload))]⟩ s = (t, .ok payload) ∧
      PortFree p t := by
  obtain ⟨shl, hd, hr⟩ := response_form hform
  obtain ⟨t, hissue, hphase, hparams, hrx, hopen⟩ :=
    exec_rdRecv_waits (fields 0 0 0 0) (h.send (doutBytes s)) hm
  have hcap := overCapacity_unbounded (s := t) (by rw [hparams, hm]) payload.length
  obtain ⟨-, hfree, hzero, -⟩ := recvSteps_response (s := t.receive (encodeResponse disc routing (0 :: 0 :: payload)))
    hphase (congrArg (· ++ _) hrx) hd hr (decide_eq_true hlen) (by rwa [State.receive_params, hparams])
    ⟨hcap, by omega⟩
  obtain ⟨hstatus, hdout⟩ := hzero rfl
  refine ⟨_, hostReceive_success hissue (deliver_append_open hopen _) hfree hstatus hdout, hfree, ?_⟩
  rw [recvSteps_params, State.receive_params, hparams]

end

end Sys2Proof.Machine
end

section
/-! The statements of the family of the host sequences. -/

namespace Sys2Proof.Proofs

open Machine Claims

/-- Settles O59: each part of the sequence succeeds; up to the exchange the stream stays empty and open, and after it
the port is free for `WC.DEC`. -/
theorem readWordReturnsTheStationsWords : Obligations.ReadWordReturnsTheStationsWords := by
  intro s d disc addr count row routing ws hb hm hrx hopen hrow hkind hcount hform hmax hlen
  have hbytes := wordEncode_length ws
  obtain ⟨s₁, hguard, h₁⟩ := guard_passes ⟨⟨hb, rfl⟩, hrx, hopen⟩ hm hrow
  obtain ⟨s₂, hread, h₂⟩ := hostIssue_feRead_succeeded (f := fields d addr count 0) h₁ hm hrow hcount
  obtain ⟨s₃, hexchange, h₃⟩ := exchange_response (payload := wordEncode ws) h₂ hm hform (by omega) (by omega)
  obtain ⟨s₄, hdec, hdout⟩ := hostIssue_wcDec_wordEncode (f := fields 0 0 0 0) (ws := ws) h₃ hm (by omega)
  rw [hkind] at hguard
  rw [readWord, hguard, andThen_ok, hread, andThen_ok, hexchange, andThen_ok, hdec, andThen_ok, hdout, itemsAs_words]
  rfl

/-- Settles O60: every guarded sequence stops at the guard, and an accepted layout is loaded before it. -/
theorem guardComesBeforeAnyIo : Obligations.GuardComesBeforeAnyIo := by
  intro s x d addr n vs ws cs
  refine ⟨fun c hc => ?_, fun row hb hm hrow => ⟨fun hbit => ?_, fun hword => ?_⟩,
    fun ds es hb hm hmax hes hsize => ?_⟩
  · have hstop {α : Type} {want : DevKind} (k : Unit → State → HostResult α) :=
      andThen_guard_not_connected (s := s) (d := d) (want := want) k hc
    exact ⟨hstop _, hstop _, hstop _, hstop _, hstop _, hstop _, selfTest_not_connected hc x s⟩
  · have hstop {α : Type} (k : Unit → State → HostResult α) :=
      andThen_guard_mismatch (want := .word) k hb hm hrow (by rw [hbit]; decide)
    exact ⟨hstop _, hstop _, hstop _, hstop _⟩
  · have hstop {α : Type} (k : Unit → State → HostResult α) :=
      andThen_guard_mismatch (want := .bit) k hb hm hrow (by rw [hword]; decide)
    exact ⟨hstop _, hstop _⟩
  · simp only [readStruct, hostIssue_rmLayout_accepted ⟨hb, rfl⟩ hm hmax hes hsize, andThen_ok]
    exact ⟨fun c hc => andThen_guard_not_connected _ hc,
      fun row hrow hbit => andThen_guard_mismatch _ rfl hm hrow (by rw [hbit]; decide)⟩

end Sys2Proof.Proofs
end

section
/-! SUPPORT. What a bound on the items changes: under `MAX_ITEMS` every operation that completes in its issue step ends
as it does without a bound, but that a longer `DOUT` becomes Capacity(ITEM_LIMIT) (spec/60_exceptions.md R287). -/

namespace Sys2Proof.Machine

open Claims

/-! ### A bound on the items -/

/-- The state with no bound on the items. -/
def State.unbounded (s : State) : State := { s with params := { s.params with maxItems := none } }

/-- What a completion without a bound becomes with the parameters `p` and their bound `m`: a longer `DOUT` is
Capacity(ITEM_LIMIT). -/
def State.capped (p : Params) (m : Nat) (t : State) : State :=
  if m < t.dout.length then { t with params := p, dout := [], olen := 0, status := 0x00006d }
  else { t with params := p }

theorem capped_of_dout_nil {t : State} (h : t.dout = []) (p : Params) (m : Nat) :
    t.capped p m = { t with params := p } :=
  if_neg (by simp [h])

theorem overCapacity_bounded {s : State} {m : Nat} (hm : s.params.maxItems = some m) (n : Nat) :
    s.overCapacity n = decide (m < n) := by
  rw [State.overCapacity, hm]

theorem finish_unbounded (s : State) (out : List Item) : s.unbounded.finish out = s.unbounded.doneWith out :=
  finish_fits rfl

/-- A bound decides of a completed operation only whether `DOUT` holds the items. -/
theorem finish_eq_capped {s : State} {m : Nat} (hm : s.params.maxItems = some m) (out : List Item) :
    s.finish out = (s.unbounded.finish out).capped s.params m := by
  rw [finish_unbounded, State.capped, State.doneWith_dout]
  have hover := overCapacity_bounded hm out.length
  by_cases h : m < out.length
  · rw [if_pos h, State.finish, if_pos (hover.trans (decide_eq_true h)), State.complete, errStatus_itemLimit]
    rfl
  · rw [if_neg h, finish_fits (hover.trans (decide_eq_false h))]
    rfl

/-- The bound on the items changes nothing of the outcome of `x` but the completions that it caps. -/
def Caps (x : State → Out) : Prop :=
  ∀ s m, s.params.maxItems = some m → x s = view (State.capped s.params m) (x s.unbounded)

/-- The same of an issued operation, with a `DIN` that the bounded port carries. -/
def OperationCaps (x : State → Out) : Prop :=
  ∀ s m, s.params.maxItems = some m → s.din.length ≤ m → x s = view (State.capped s.params m) (x s.unbounded)

theorem Caps.ite {p : State → Prop} [∀ s, Decidable (p s)] {a b : State → Out} (ha : Caps a) (hb : Caps b)
    (hp : ∀ s, p s.unbounded = p s := by intro _; rfl) : Caps fun s => if p s then a s else b s := by
  intro s m hm
  dsimp only
  by_cases h : p s
  · rw [if_pos h, if_pos ((hp s).mpr h)]
    exact ha s m hm
  · rw [if_neg h, if_neg (fun hu => h ((hp s).mp hu))]
    exact hb s m hm

/-- A completion that leaves `DOUT` empty and reads no bound is within every bound. -/
theorem Caps.empty {t : State → State} (hdout : ∀ s, (t s).dout = [] := by intro _; rfl)
    (hbound : ∀ s, { t s.unbounded with params := s.params } = t s := by intro _; rfl) :
    Caps fun s => .next (t s) := by
  intro s m _
  rw [view, capped_of_dout_nil (hdout _), hbound]

theorem Caps.finish {out : State → List Item} (hout : ∀ s, out s.unbounded = out s := by intro _; rfl) :
    Caps fun s => .next (s.finish (out s)) := by
  intro s m hm
  dsimp only
  rw [hout, finish_eq_capped hm, view]

theorem Caps.deliverFrame {frame : State → Option (List Byte)}
    (hframe : ∀ s, frame s.unbounded = frame s := by intro _; rfl) : Caps fun s => deliverFrame s (frame s) := by
  intro s m hm
  dsimp only
  rw [hframe]
  cases frame s with
  | none => rfl
  | some bs => exact Caps.finish (out := fun _ => bs.map .byte) (fun _ => rfl) s m hm

theorem Caps.withDin {α : Type} {as? : Item → Option α} {k : List α → State → Out} (h : ∀ xs, Caps (k xs)) :
    Caps fun s => withDin as? s fun xs => k xs s := by
  intro s m hm
  dsimp only
  cases hx : itemsAs as? s.din with
  | none => simp only [Machine.withDin, State.unbounded, hx, view]
  | some xs =>
    rw [withDin_some hx, withDin_some (by exact hx)]
    exact h xs s m hm

theorem Caps.withDevice {k : DevRow → State → Out} (h : ∀ row, Caps (k row)) :
    Caps fun s => withDevice s fun row => k row s := by
  intro s m hm
  dsimp only
  cases hr : s.device s.dev with
  | none =>
    rw [withDevice_none hr, withDevice_none (by exact hr)]
    exact Caps.empty (t := fun s => s.complete .unknownDevice .none 0) (fun _ => rfl) (fun _ => rfl) s m hm
  | some row =>
    rw [withDevice_some hr, withDevice_some (by exact hr)]
    exact h row s m hm

theorem Caps.withLayout {k : State → Out} (h : Caps k) : Caps fun s => withLayout s (k s) :=
  .ite h .empty

/-- The port's checks answer the same with the bound and without: `DIN` is within it. -/
theorem OperationCaps.issue {op : Byte} {f : CwFields} {k : State → Out} (hk : Caps k) :
    OperationCaps fun s => issue op f s k := by
  intro s m hm hdin
  dsimp only
  cases hb : s.busy with
  | true =>
    rw [issue_busy hb, issue_busy (by exact hb)]
    rfl
  | false =>
    have hcap : s.overCapacity s.din.length = false :=
      (overCapacity_bounded hm _).trans (decide_eq_false (Nat.not_lt.mpr hdin))
    rw [issue_ready hb hcap, issue_ready (by exact hb) rfl]
    exact hk (s.loadOperands op f) m hm

/-! ### The sixteen operations that complete in their issue step -/

section
variable (f : CwFields)

theorem dtKind_caps : OperationCaps (execDtKind f) := .issue <| .withDevice fun _ => .empty

theorem dtCode_caps : OperationCaps (execDtCode f) := .issue <| .withDevice fun _ => .empty

theorem dtSubcmd_caps : OperationCaps (execDtSubcmd f) := .issue <| .withDevice fun _ => .empty

theorem feRead_caps : OperationCaps (execFeRead f) := .issue <| .withDevice fun _ => .ite .empty .deliverFrame

theorem feWrite_caps : OperationCaps (execFeWrite f) :=
  .issue <| .withDin fun _ => .withDevice fun _ => .ite .empty (.ite .empty .deliverFrame)

theorem feSelftest_caps : OperationCaps (execFeSelftest f) := .issue .deliverFrame

theorem bcEnc_caps : OperationCaps (execBcEnc f) := .issue <| .withDin fun _ => .finish

theorem bcDec_caps : OperationCaps (execBcDec f) := .issue <| .withDin fun _ => .ite .empty .finish

theorem wcEnc_caps : OperationCaps (execWcEnc f) := .issue <| .withDin fun _ => .finish

theorem wcDec_caps : OperationCaps (execWcDec f) := .issue <| .withDin fun _ => .ite .empty .finish

theorem wcSenc_caps : OperationCaps (execWcSenc f) := .issue <| .withDin fun _ => .finish

theorem wcSdec_caps : OperationCaps (execWcSdec f) := .issue <| .withDin fun _ => .ite .empty (.ite .empty .finish)

/-- `RM.LAYOUT` clears the table first; neither that nor its checks read the bound. -/
theorem rmLayout_caps : OperationCaps (execRmLayout f) := by
  refine .issue <| .withDin fun ds => .ite .empty ?_
  cases buildLayout 0 ds with
  | ok es => exact .empty
  | error e => exact .empty

theorem rmSizeof_caps : OperationCaps (execRmSizeof f) := .issue <| .withLayout .empty

theorem rmDec_caps : OperationCaps (execRmDec f) := .issue <| .withDin fun _ => .withLayout <| .ite .empty .finish

theorem rmEnc_caps : OperationCaps (execRmEnc f) := by
  refine .issue <| .withDin fun vs => .withLayout <| .ite .empty fun s m hm => ?_
  have hlayout : s.unbounded.layout = s.layout := rfl
  rw [hlayout]
  cases recordEncode s.layout vs with
  | ok ws => exact Caps.finish (out := fun _ => ws.map .word) (fun _ => rfl) s m hm
  | error c => exact Caps.empty (t := fun s => s.complete .shapeError c 0) (fun _ => rfl) (fun _ => rfl) s m hm

end

/-- Of the operations only `RD.RECV` does not complete in its issue step. -/
theorem operation_caps {mk : CwFields → Instr} {f : CwFields} (hmk : mk ∈ operations) (hne : mk f ≠ .rdRecv f) :
    OperationCaps (exec (mk f)) := by
  simp only [operations, List.mem_cons, List.not_mem_nil, or_false] at hmk
  rcases hmk with rfl | rfl | rfl | rfl | rfl | rfl | rfl | rfl | rfl | rfl | rfl | rfl | rfl | rfl | rfl | rfl | rfl
  · exact dtKind_caps f
  · exact dtCode_caps f
  · exact dtSubcmd_caps f
  · exact feRead_caps f
  · exact feWrite_caps f
  · exact feSelftest_caps f
  · exact absurd rfl hne
  · exact bcEnc_caps f
  · exact bcDec_caps f
  · exact wcEnc_caps f
  · exact wcDec_caps f
  · exact wcSenc_caps f
  · exact wcSdec_caps f
  · exact rmLayout_caps f
  · exact rmSizeof_caps f
  · exact rmDec_caps f
  · exact rmEnc_caps f

end Sys2Proof.Machine
end

section
/-! The statements of the family of the exceptions. -/

namespace Sys2Proof.Proofs

open Machine Claims

/-- Settles O41: the fields of a packed status word read back, and `OLEN` counts the items as far as 32 bits do. -/
theorem completionsWriteWhatTheySay : Obligations.CompletionsWriteWhatTheySay := by
  refine ⟨by decide, fun s k c v out hout => ?_⟩
  obtain ⟨herr, hsub, hcode⟩ := complete_status_fields s k c v
  exact ⟨rfl, herr, hsub, hcode, by rw [State.doneWith, olenOf_small hout]⟩

/-- Settles O42: the bound caps what the operation delivers without one. -/
theorem tooManyItemsIsACapacityError : Obligations.TooManyItemsIsACapacityError := by
  intro f mk s t m hmk hne hm hdin hnext
  have hunbounded : exec (mk f) s.unbounded = .next t := hnext
  rw [operation_caps hmk hne s m hm hdin, hunbounded]
  rfl

end Sys2Proof.Proofs
end

section
/-! SUPPORT. The host's move when it asserts `RESET` (spec/70_reset_and_hazards.md R320). -/

namespace Sys2Proof.Machine

/-- A step in which the schedule names a host that wants to reset is that reset, whatever `BUSY` and the phase of
`RD.RECV` are: only `hostStep`'s issues look at `BUSY`. -/
theorem step_resets {s : State} {rest : List HostAct} {later : List Agent} (hq : s.hostQ = .reset :: rest)
    (hsched : s.sched = .host :: later) :
    step s = .next { s with sched := later, hostQ := rest }.resetBlock := by
  rw [step_scheduled hsched, agentStep, hostStep]
  simp only [hq]

end Sys2Proof.Machine
end

section
/-! The statements of the family of the reset and the hazards. -/

namespace Sys2Proof.Proofs

open Machine Claims

/-- Settles O49: the step is the reset of the block, on a state that differs from `s` in the agents' lists only; so what
the reset leaves alone is as it was in `s`. -/
theorem resetAbandonsWhateverRuns : Obligations.ResetAbandonsWhateverRuns := by
  intro s rest later hq hsched
  exact ⟨_, step_resets hq hsched, State.resetBlock_busy _, State.resetBlock_status _, State.resetBlock_res _,
    State.resetBlock_olen _, State.resetBlock_din _, State.resetBlock_dout _, State.resetBlock_phase _,
    State.resetBlock_ltValid _, State.resetBlock_ltN _, State.resetBlock_ltSize _, State.resetBlock_rxBytes _,
    State.resetBlock_rxTerm _, State.resetBlock_params _⟩

end Sys2Proof.Proofs
end
